-- ==== Sys2Proof/Word.lean ====
section
/-!
DEFINITION. The word types of the machine (spec/00_scope.md R10: byte 8 bits, instruction 32 bits,
registers and effective addresses 64 bits, register numbers 5 bits).
-/
namespace Sys2Proof

/-- A byte of storage (R10). -/
abbrev Byte := BitVec 8

/-- An instruction word, and the width of CR and FPSCR (R10). -/
abbrev Word := BitVec 32

/-- The width of GPRs, FPRs, LR, CTR, XER and of effective addresses (R10). -/
abbrev DWord := BitVec 64

/-- A register number: the 5-bit fields RA, RB, RS, RT, FRA, FRB, FRC, FRS, FRT (10_state.md R41, R60). -/
abbrev RegNum := BitVec 5

end Sys2Proof
end

