-- ==== Sys2Proof/Machine/Bits.lean ====
section
/-!
DEFINITION. Bit fields in the spec's numbering (spec/00_scope.md R11: bit 0 is the most significant bit
of every register, instruction and field), and the sign and zero extensions of R18.
-/
namespace Sys2Proof.Machine

/-- `x[start : start+len-1]` in the spec's numbering. -/
def fld {w : Nat} (x : BitVec w) (start len : Nat) : BitVec len :=
  x.extractLsb' (w - start - len) len

/-- Bit `i` of `x` in the spec's numbering. -/
def bitAt {w : Nat} (x : BitVec w) (i : Nat) : Bool :=
  x.getLsbD (w - 1 - i)

/-- `x` with the bits `start : start+len-1` (the spec's numbering) replaced by `v`. -/
def setFld {w len : Nat} (x : BitVec w) (start : Nat) (v : BitVec len) : BitVec w :=
  let sh := w - start - len
  let mask : BitVec w := (BitVec.allOnes len).setWidth w <<< sh
  (x &&& ~~~mask) ||| (v.setWidth w <<< sh)

/-- `x` with bit `i` (the spec's numbering) set to `b`. -/
def setBitAt {w : Nat} (x : BitVec w) (i : Nat) (b : Bool) : BitVec w :=
  setFld x i (BitVec.ofBool b)

/-- `sext_64`: sign extension to 64 bits. -/
def sext64 {w : Nat} (x : BitVec w) : DWord := x.signExtend 64

/-- `zext_64`: zero extension to 64 bits. -/
def zext64 {w : Nat} (x : BitVec w) : DWord := x.setWidth 64

/-- `x[32:63]`, the low-order word of a 64-bit value. -/
def lowWord (x : DWord) : Word := x.setWidth 32

/-- `x[0:31]`, the high-order word of a 64-bit value. -/
def highWord (x : DWord) : Word := x.extractLsb' 32 32

end Sys2Proof.Machine
end

