-- ==== Sys2Proof/Syntax.lean ====
section
/-!
DEFINITION. The instructions of Book I: one constructor per row of spec/opcode_table.json, in its order,
with the fields of the row's layout box (spec/30_encoding.md R158, R172).  Split fields are whole and in
the order of their value (R141): `sh`, `mb`, `me` are the 6-bit amounts SH, MB, ME and `spr` is the SPR
number.  Rc, OE, LK, AA and L are `Bool`.  Reserved fields carry nothing (spec/00_scope.md R24).
-/
namespace Sys2Proof

/-- A Book I instruction (spec/30_encoding.md R172). -/
inductive Instr where
  /-- tdi: Trap Doubleword Immediate (44_fx_compare_trap_logical.md R391; D-form). -/
  | tdi (tos : BitVec 5) (ra : RegNum) (si : BitVec 16)
  /-- twi: Trap Word Immediate (44_fx_compare_trap_logical.md R392; D-form). -/
  | twi (tos : BitVec 5) (ra : RegNum) (si : BitVec 16)
  /-- mulli: Multiply Low Immediate (43_fx_arith.md R350; D-form). -/
  | mulli (rt ra : RegNum) (si : BitVec 16)
  /-- subfic: Subtract From Immediate Carrying (43_fx_arith.md R340; D-form). -/
  | subfic (rt ra : RegNum) (si : BitVec 16)
  /-- cmpli: Compare Logical Immediate (44_fx_compare_trap_logical.md R383; D-form). -/
  | cmpli (bf : BitVec 3) (l : Bool) (ra : RegNum) (ui : BitVec 16)
  /-- cmpi: Compare Immediate (44_fx_compare_trap_logical.md R381; D-form). -/
  | cmpi (bf : BitVec 3) (l : Bool) (ra : RegNum) (si : BitVec 16)
  /-- addic: Add Immediate Carrying (43_fx_arith.md R338; D-form). -/
  | addic (rt ra : RegNum) (si : BitVec 16)
  /-- addic.: Add Immediate Carrying and Record (43_fx_arith.md R339; D-form). -/
  | addicRec (rt ra : RegNum) (si : BitVec 16)
  /-- addi: Add Immediate (43_fx_arith.md R334; D-form). -/
  | addi (rt ra : RegNum) (si : BitVec 16)
  /-- addis: Add Immediate Shifted (43_fx_arith.md R335; D-form). -/
  | addis (rt ra : RegNum) (si : BitVec 16)
  /-- bc[l][a]: Branch Conditional (40_branch.md R210; B-form). -/
  | bc (bo bi : BitVec 5) (bd : BitVec 14) (aa lk : Bool)
  /-- sc: System Call (40_branch.md R211; SC-form). -/
  | sc (lev : BitVec 7) (bit30 : Bool)
  /-- b[l][a]: Branch (40_branch.md R209; I-form). -/
  | b (li : BitVec 24) (aa lk : Bool)
  /-- mcrf: Move Condition Register Field (40_branch.md R222; XL-form). -/
  | mcrf (bf bfa : BitVec 3)
  /-- bclr[l]: Branch Conditional to Link Register (40_branch.md R220; XL-form). -/
  | bclr (bo bi : BitVec 5) (bh : BitVec 2) (lk : Bool)
  /-- crnor: Condition Register NOR (40_branch.md R216; XL-form). -/
  | crnor (bt ba bb : BitVec 5)
  /-- crandc: Condition Register AND with Complement (40_branch.md R218; XL-form). -/
  | crandc (bt ba bb : BitVec 5)
  /-- crxor: Condition Register XOR (40_branch.md R214; XL-form). -/
  | crxor (bt ba bb : BitVec 5)
  /-- crnand: Condition Register NAND (40_branch.md R215; XL-form). -/
  | crnand (bt ba bb : BitVec 5)
  /-- crand: Condition Register AND (40_branch.md R212; XL-form). -/
  | crand (bt ba bb : BitVec 5)
  /-- creqv: Condition Register Equivalent (40_branch.md R217; XL-form). -/
  | creqv (bt ba bb : BitVec 5)
  /-- crorc: Condition Register OR with Complement (40_branch.md R219; XL-form). -/
  | crorc (bt ba bb : BitVec 5)
  /-- cror: Condition Register OR (40_branch.md R213; XL-form). -/
  | cror (bt ba bb : BitVec 5)
  /-- bcctr[l]: Branch Conditional to Count Register (40_branch.md R221; XL-form). -/
  | bcctr (bo bi : BitVec 5) (bh : BitVec 2) (lk : Bool)
  /-- rlwimi[.]: Rotate Left Word Immediate then Mask Insert (45_fx_rotate_shift.md R453; M-form). -/
  | rlwimi (rs ra : RegNum) (sh mb me : BitVec 5) (rc : Bool)
  /-- rlwinm[.]: Rotate Left Word Immediate then AND with Mask (45_fx_rotate_shift.md R448; M-form). -/
  | rlwinm (rs ra : RegNum) (sh mb me : BitVec 5) (rc : Bool)
  /-- rlwnm[.]: Rotate Left Word then AND with Mask (45_fx_rotate_shift.md R451; M-form). -/
  | rlwnm (rs ra rb : RegNum) (mb me : BitVec 5) (rc : Bool)
  /-- ori: OR Immediate (44_fx_compare_trap_logical.md R401; D-form). -/
  | ori (rs ra : RegNum) (ui : BitVec 16)
  /-- oris: OR Immediate Shifted (44_fx_compare_trap_logical.md R402; D-form). -/
  | oris (rs ra : RegNum) (ui : BitVec 16)
  /-- xori: XOR Immediate (44_fx_compare_trap_logical.md R403; D-form). -/
  | xori (rs ra : RegNum) (ui : BitVec 16)
  /-- xoris: XOR Immediate Shifted (44_fx_compare_trap_logical.md R404; D-form). -/
  | xoris (rs ra : RegNum) (ui : BitVec 16)
  /-- andi.: AND Immediate (44_fx_compare_trap_logical.md R397; D-form). -/
  | andiRec (rs ra : RegNum) (ui : BitVec 16)
  /-- andis.: AND Immediate Shifted (44_fx_compare_trap_logical.md R398; D-form). -/
  | andisRec (rs ra : RegNum) (ui : BitVec 16)
  /-- rldicl[.]: Rotate Left Doubleword Immediate then Clear Left (45_fx_rotate_shift.md R445; MD-form). -/
  | rldicl (rs ra : RegNum) (sh mb : BitVec 6) (rc : Bool)
  /-- rldicr[.]: Rotate Left Doubleword Immediate then Clear Right (45_fx_rotate_shift.md R446; MD-form). -/
  | rldicr (rs ra : RegNum) (sh me : BitVec 6) (rc : Bool)
  /-- rldic[.]: Rotate Left Doubleword Immediate then Clear (45_fx_rotate_shift.md R447; MD-form). -/
  | rldic (rs ra : RegNum) (sh mb : BitVec 6) (rc : Bool)
  /-- rldimi[.]: Rotate Left Doubleword Immediate then Mask Insert (45_fx_rotate_shift.md R452; MD-form). -/
  | rldimi (rs ra : RegNum) (sh mb : BitVec 6) (rc : Bool)
  /-- rldcl[.]: Rotate Left Doubleword then Clear Left (45_fx_rotate_shift.md R449; MDS-form). -/
  | rldcl (rs ra rb : RegNum) (mb : BitVec 6) (rc : Bool)
  /-- rldcr[.]: Rotate Left Doubleword then Clear Right (45_fx_rotate_shift.md R450; MDS-form). -/
  | rldcr (rs ra rb : RegNum) (me : BitVec 6) (rc : Bool)
  /-- cmp: Compare (44_fx_compare_trap_logical.md R382; X-form). -/
  | cmp (bf : BitVec 3) (l : Bool) (ra rb : RegNum)
  /-- tw: Trap Word (44_fx_compare_trap_logical.md R394; X-form). -/
  | tw (tos : BitVec 5) (ra rb : RegNum)
  /-- subfc[o][.]: Subtract From Carrying (43_fx_arith.md R342; XO-form). -/
  | subfc (rt ra rb : RegNum) (oe rc : Bool)
  /-- mulhdu[.]: Multiply High Doubleword Unsigned (43_fx_arith.md R356; XO-form). -/
  | mulhdu (rt ra rb : RegNum) (rc : Bool)
  /-- addc[o][.]: Add Carrying (43_fx_arith.md R341; XO-form). -/
  | addc (rt ra rb : RegNum) (oe rc : Bool)
  /-- mulhwu[.]: Multiply High Word Unsigned (43_fx_arith.md R357; XO-form). -/
  | mulhwu (rt ra rb : RegNum) (rc : Bool)
  /-- mfcr: Move From Condition Register (46_fx_sysreg.md R486; XFX-form). -/
  | mfcr (rt : RegNum)
  /-- mfocrf: Move From One Condition Register Field (49_optional.md R673; XFX-form). -/
  | mfocrf (rt : RegNum) (fxm : BitVec 8)
  /-- ldx: Load Doubleword Indexed (41_fx_load_store.md R266; X-form). -/
  | ldx (rt ra rb : RegNum)
  /-- lwzx: Load Word and Zero Indexed (41_fx_load_store.md R259; X-form). -/
  | lwzx (rt ra rb : RegNum)
  /-- slw[.]: Shift Left Word (45_fx_rotate_shift.md R457; X-form). -/
  | slw (rs ra rb : RegNum) (rc : Bool)
  /-- cntlzw[.]: Count Leading Zeros Word (44_fx_compare_trap_logical.md R417; X-form). -/
  | cntlzw (rs ra : RegNum) (rc : Bool)
  /-- sld[.]: Shift Left Doubleword (45_fx_rotate_shift.md R456; X-form). -/
  | sld (rs ra rb : RegNum) (rc : Bool)
  /-- and[.]: AND (44_fx_compare_trap_logical.md R405; X-form). -/
  | and (rs ra rb : RegNum) (rc : Bool)
  /-- cmpl: Compare Logical (44_fx_compare_trap_logical.md R384; X-form). -/
  | cmpl (bf : BitVec 3) (l : Bool) (ra rb : RegNum)
  /-- subf[o][.]: Subtract From (43_fx_arith.md R337; XO-form). -/
  | subf (rt ra rb : RegNum) (oe rc : Bool)
  /-- ldux: Load Doubleword with Update Indexed (41_fx_load_store.md R268; X-form). -/
  | ldux (rt ra rb : RegNum)
  /-- lwzux: Load Word and Zero with Update Indexed (41_fx_load_store.md R261; X-form). -/
  | lwzux (rt ra rb : RegNum)
  /-- cntlzd[.]: Count Leading Zeros Doubleword (44_fx_compare_trap_logical.md R416; X-form). -/
  | cntlzd (rs ra : RegNum) (rc : Bool)
  /-- andc[.]: AND with Complement (44_fx_compare_trap_logical.md R411; X-form). -/
  | andc (rs ra rb : RegNum) (rc : Bool)
  /-- td: Trap Doubleword (44_fx_compare_trap_logical.md R393; X-form). -/
  | td (tos : BitVec 5) (ra rb : RegNum)
  /-- mulhd[.]: Multiply High Doubleword (43_fx_arith.md R354; XO-form). -/
  | mulhd (rt ra rb : RegNum) (rc : Bool)
  /-- mulhw[.]: Multiply High Word (43_fx_arith.md R355; XO-form). -/
  | mulhw (rt ra rb : RegNum) (rc : Bool)
  /-- lbzx: Load Byte and Zero Indexed (41_fx_load_store.md R247; X-form). -/
  | lbzx (rt ra rb : RegNum)
  /-- neg[o][.]: Negate (43_fx_arith.md R349; XO-form). -/
  | neg (rt ra : RegNum) (oe rc : Bool)
  /-- lbzux: Load Byte and Zero with Update Indexed (41_fx_load_store.md R249; X-form). -/
  | lbzux (rt ra rb : RegNum)
  /-- popcntb: Population Count Bytes (44_fx_compare_trap_logical.md R418; X-form). -/
  | popcntb (rs ra : RegNum)
  /-- nor[.]: NOR (44_fx_compare_trap_logical.md R409; X-form). -/
  | nor (rs ra rb : RegNum) (rc : Bool)
  /-- subfe[o][.]: Subtract From Extended (43_fx_arith.md R344; XO-form). -/
  | subfe (rt ra rb : RegNum) (oe rc : Bool)
  /-- adde[o][.]: Add Extended (43_fx_arith.md R343; XO-form). -/
  | adde (rt ra rb : RegNum) (oe rc : Bool)
  /-- mtcrf: Move To Condition Register Fields (46_fx_sysreg.md R484; XFX-form). -/
  | mtcrf (rs : RegNum) (fxm : BitVec 8)
  /-- mtocrf: Move To One Condition Register Field (49_optional.md R672; XFX-form). -/
  | mtocrf (rs : RegNum) (fxm : BitVec 8)
  /-- stdx: Store Doubleword Indexed (41_fx_load_store.md R282; X-form). -/
  | stdx (rs ra rb : RegNum)
  /-- stwx: Store Word Indexed (41_fx_load_store.md R278; X-form). -/
  | stwx (rs ra rb : RegNum)
  /-- stdux: Store Doubleword with Update Indexed (41_fx_load_store.md R284; X-form). -/
  | stdux (rs ra rb : RegNum)
  /-- stwux: Store Word with Update Indexed (41_fx_load_store.md R280; X-form). -/
  | stwux (rs ra rb : RegNum)
  /-- subfze[o][.]: Subtract From Zero Extended (43_fx_arith.md R348; XO-form). -/
  | subfze (rt ra : RegNum) (oe rc : Bool)
  /-- addze[o][.]: Add to Zero Extended (43_fx_arith.md R347; XO-form). -/
  | addze (rt ra : RegNum) (oe rc : Bool)
  /-- stbx: Store Byte Indexed (41_fx_load_store.md R270; X-form). -/
  | stbx (rs ra rb : RegNum)
  /-- subfme[o][.]: Subtract From Minus One Extended (43_fx_arith.md R346; XO-form). -/
  | subfme (rt ra : RegNum) (oe rc : Bool)
  /-- mulld[o][.]: Multiply Low Doubleword (43_fx_arith.md R351; XO-form). -/
  | mulld (rt ra rb : RegNum) (oe rc : Bool)
  /-- addme[o][.]: Add to Minus One Extended (43_fx_arith.md R345; XO-form). -/
  | addme (rt ra : RegNum) (oe rc : Bool)
  /-- mullw[o][.]: Multiply Low Word (43_fx_arith.md R352; XO-form). -/
  | mullw (rt ra rb : RegNum) (oe rc : Bool)
  /-- stbux: Store Byte with Update Indexed (41_fx_load_store.md R272; X-form). -/
  | stbux (rs ra rb : RegNum)
  /-- add[o][.]: Add (43_fx_arith.md R336; XO-form). -/
  | add (rt ra rb : RegNum) (oe rc : Bool)
  /-- lhzx: Load Halfword and Zero Indexed (41_fx_load_store.md R251; X-form). -/
  | lhzx (rt ra rb : RegNum)
  /-- eqv[.]: Equivalent (44_fx_compare_trap_logical.md R410; X-form). -/
  | eqv (rs ra rb : RegNum) (rc : Bool)
  /-- lhzux: Load Halfword and Zero with Update Indexed (41_fx_load_store.md R253; X-form). -/
  | lhzux (rt ra rb : RegNum)
  /-- xor[.]: XOR (44_fx_compare_trap_logical.md R407; X-form). -/
  | xor (rs ra rb : RegNum) (rc : Bool)
  /-- mfspr: Move From Special Purpose Register (46_fx_sysreg.md R482; XFX-form). -/
  | mfspr (rt : RegNum) (spr : BitVec 10)
  /-- lwax: Load Word Algebraic Indexed (41_fx_load_store.md R263; X-form). -/
  | lwax (rt ra rb : RegNum)
  /-- lhax: Load Halfword Algebraic Indexed (41_fx_load_store.md R255; X-form). -/
  | lhax (rt ra rb : RegNum)
  /-- lwaux: Load Word Algebraic with Update Indexed (41_fx_load_store.md R264; X-form). -/
  | lwaux (rt ra rb : RegNum)
  /-- lhaux: Load Halfword Algebraic with Update Indexed (41_fx_load_store.md R257; X-form). -/
  | lhaux (rt ra rb : RegNum)
  /-- sthx: Store Halfword Indexed (41_fx_load_store.md R274; X-form). -/
  | sthx (rs ra rb : RegNum)
  /-- orc[.]: OR with Complement (44_fx_compare_trap_logical.md R412; X-form). -/
  | orc (rs ra rb : RegNum) (rc : Bool)
  /-- sradi[.]: Shift Right Algebraic Doubleword Immediate (45_fx_rotate_shift.md R460; XS-form). -/
  | sradi (rs ra : RegNum) (sh : BitVec 6) (rc : Bool)
  /-- sthux: Store Halfword with Update Indexed (41_fx_load_store.md R276; X-form). -/
  | sthux (rs ra rb : RegNum)
  /-- or[.]: OR (44_fx_compare_trap_logical.md R406; X-form). -/
  | or (rs ra rb : RegNum) (rc : Bool)
  /-- divdu[o][.]: Divide Doubleword Unsigned (43_fx_arith.md R361; XO-form). -/
  | divdu (rt ra rb : RegNum) (oe rc : Bool)
  /-- divwu[o][.]: Divide Word Unsigned (43_fx_arith.md R362; XO-form). -/
  | divwu (rt ra rb : RegNum) (oe rc : Bool)
  /-- mtspr: Move To Special Purpose Register (46_fx_sysreg.md R481; XFX-form). -/
  | mtspr (rs : RegNum) (spr : BitVec 10)
  /-- nand[.]: NAND (44_fx_compare_trap_logical.md R408; X-form). -/
  | nand (rs ra rb : RegNum) (rc : Bool)
  /-- divd[o][.]: Divide Doubleword (43_fx_arith.md R359; XO-form). -/
  | divd (rt ra rb : RegNum) (oe rc : Bool)
  /-- divw[o][.]: Divide Word (43_fx_arith.md R360; XO-form). -/
  | divw (rt ra rb : RegNum) (oe rc : Bool)
  /-- mcrxr: Move to Condition Register from XER (49_optional.md R689; X-form). -/
  | mcrxr (bf : BitVec 3)
  /-- lswx: Load String Word Indexed (42_fx_multiple_string.md R312; X-form). -/
  | lswx (rt ra rb : RegNum)
  /-- lwbrx: Load Word Byte-Reverse Indexed (42_fx_multiple_string.md R303; X-form). -/
  | lwbrx (rt ra rb : RegNum)
  /-- lfsx: Load Floating-Point Single Indexed (48_fp_load_store_move.md R583; X-form). -/
  | lfsx (frt ra rb : RegNum)
  /-- srw[.]: Shift Right Word (45_fx_rotate_shift.md R459; X-form). -/
  | srw (rs ra rb : RegNum) (rc : Bool)
  /-- srd[.]: Shift Right Doubleword (45_fx_rotate_shift.md R458; X-form). -/
  | srd (rs ra rb : RegNum) (rc : Bool)
  /-- lfsux: Load Floating-Point Single with Update Indexed (48_fp_load_store_move.md R585; X-form). -/
  | lfsux (frt ra rb : RegNum)
  /-- lswi: Load String Word Immediate (42_fx_multiple_string.md R311; X-form). -/
  | lswi (rt ra : RegNum) (nb : BitVec 5)
  /-- lfdx: Load Floating-Point Double Indexed (48_fp_load_store_move.md R587; X-form). -/
  | lfdx (frt ra rb : RegNum)
  /-- lfdux: Load Floating-Point Double with Update Indexed (48_fp_load_store_move.md R589; X-form). -/
  | lfdux (frt ra rb : RegNum)
  /-- stswx: Store String Word Indexed (42_fx_multiple_string.md R314; X-form). -/
  | stswx (rs ra rb : RegNum)
  /-- stwbrx: Store Word Byte-Reverse Indexed (42_fx_multiple_string.md R305; X-form). -/
  | stwbrx (rs ra rb : RegNum)
  /-- stfsx: Store Floating-Point Single Indexed (48_fp_load_store_move.md R601; X-form). -/
  | stfsx (frs ra rb : RegNum)
  /-- stfsux: Store Floating-Point Single with Update Indexed (48_fp_load_store_move.md R603; X-form). -/
  | stfsux (frs ra rb : RegNum)
  /-- stswi: Store String Word Immediate (42_fx_multiple_string.md R313; X-form). -/
  | stswi (rs ra : RegNum) (nb : BitVec 5)
  /-- stfdx: Store Floating-Point Double Indexed (48_fp_load_store_move.md R605; X-form). -/
  | stfdx (frs ra rb : RegNum)
  /-- stfdux: Store Floating-Point Double with Update Indexed (48_fp_load_store_move.md R607; X-form). -/
  | stfdux (frs ra rb : RegNum)
  /-- lhbrx: Load Halfword Byte-Reverse Indexed (42_fx_multiple_string.md R302; X-form). -/
  | lhbrx (rt ra rb : RegNum)
  /-- sraw[.]: Shift Right Algebraic Word (45_fx_rotate_shift.md R463; X-form). -/
  | sraw (rs ra rb : RegNum) (rc : Bool)
  /-- srad[.]: Shift Right Algebraic Doubleword (45_fx_rotate_shift.md R462; X-form). -/
  | srad (rs ra rb : RegNum) (rc : Bool)
  /-- srawi[.]: Shift Right Algebraic Word Immediate (45_fx_rotate_shift.md R461; X-form). -/
  | srawi (rs ra : RegNum) (sh : BitVec 5) (rc : Bool)
  /-- sthbrx: Store Halfword Byte-Reverse Indexed (42_fx_multiple_string.md R304; X-form). -/
  | sthbrx (rs ra rb : RegNum)
  /-- extsh[.]: Extend Sign Halfword (44_fx_compare_trap_logical.md R414; X-form). -/
  | extsh (rs ra : RegNum) (rc : Bool)
  /-- extsb[.]: Extend Sign Byte (44_fx_compare_trap_logical.md R413; X-form). -/
  | extsb (rs ra : RegNum) (rc : Bool)
  /-- stfiwx: Store Floating-Point as Integer Word Indexed (48_fp_load_store_move.md R608; X-form). -/
  | stfiwx (frs ra rb : RegNum)
  /-- extsw[.]: Extend Sign Word (44_fx_compare_trap_logical.md R415; X-form). -/
  | extsw (rs ra : RegNum) (rc : Bool)
  /-- lwz: Load Word and Zero (41_fx_load_store.md R258; D-form). -/
  | lwz (rt ra : RegNum) (d : BitVec 16)
  /-- lwzu: Load Word and Zero with Update (41_fx_load_store.md R260; D-form). -/
  | lwzu (rt ra : RegNum) (d : BitVec 16)
  /-- lbz: Load Byte and Zero (41_fx_load_store.md R246; D-form). -/
  | lbz (rt ra : RegNum) (d : BitVec 16)
  /-- lbzu: Load Byte and Zero with Update (41_fx_load_store.md R248; D-form). -/
  | lbzu (rt ra : RegNum) (d : BitVec 16)
  /-- stw: Store Word (41_fx_load_store.md R277; D-form). -/
  | stw (rs ra : RegNum) (d : BitVec 16)
  /-- stwu: Store Word with Update (41_fx_load_store.md R279; D-form). -/
  | stwu (rs ra : RegNum) (d : BitVec 16)
  /-- stb: Store Byte (41_fx_load_store.md R269; D-form). -/
  | stb (rs ra : RegNum) (d : BitVec 16)
  /-- stbu: Store Byte with Update (41_fx_load_store.md R271; D-form). -/
  | stbu (rs ra : RegNum) (d : BitVec 16)
  /-- lhz: Load Halfword and Zero (41_fx_load_store.md R250; D-form). -/
  | lhz (rt ra : RegNum) (d : BitVec 16)
  /-- lhzu: Load Halfword and Zero with Update (41_fx_load_store.md R252; D-form). -/
  | lhzu (rt ra : RegNum) (d : BitVec 16)
  /-- lha: Load Halfword Algebraic (41_fx_load_store.md R254; D-form). -/
  | lha (rt ra : RegNum) (d : BitVec 16)
  /-- lhau: Load Halfword Algebraic with Update (41_fx_load_store.md R256; D-form). -/
  | lhau (rt ra : RegNum) (d : BitVec 16)
  /-- sth: Store Halfword (41_fx_load_store.md R273; D-form). -/
  | sth (rs ra : RegNum) (d : BitVec 16)
  /-- sthu: Store Halfword with Update (41_fx_load_store.md R275; D-form). -/
  | sthu (rs ra : RegNum) (d : BitVec 16)
  /-- lmw: Load Multiple Word (42_fx_multiple_string.md R307; D-form). -/
  | lmw (rt ra : RegNum) (d : BitVec 16)
  /-- stmw: Store Multiple Word (42_fx_multiple_string.md R308; D-form). -/
  | stmw (rs ra : RegNum) (d : BitVec 16)
  /-- lfs: Load Floating-Point Single (48_fp_load_store_move.md R582; D-form). -/
  | lfs (frt ra : RegNum) (d : BitVec 16)
  /-- lfsu: Load Floating-Point Single with Update (48_fp_load_store_move.md R584; D-form). -/
  | lfsu (frt ra : RegNum) (d : BitVec 16)
  /-- lfd: Load Floating-Point Double (48_fp_load_store_move.md R586; D-form). -/
  | lfd (frt ra : RegNum) (d : BitVec 16)
  /-- lfdu: Load Floating-Point Double with Update (48_fp_load_store_move.md R588; D-form). -/
  | lfdu (frt ra : RegNum) (d : BitVec 16)
  /-- stfs: Store Floating-Point Single (48_fp_load_store_move.md R600; D-form). -/
  | stfs (frs ra : RegNum) (d : BitVec 16)
  /-- stfsu: Store Floating-Point Single with Update (48_fp_load_store_move.md R602; D-form). -/
  | stfsu (frs ra : RegNum) (d : BitVec 16)
  /-- stfd: Store Floating-Point Double (48_fp_load_store_move.md R604; D-form). -/
  | stfd (frs ra : RegNum) (d : BitVec 16)
  /-- stfdu: Store Floating-Point Double with Update (48_fp_load_store_move.md R606; D-form). -/
  | stfdu (frs ra : RegNum) (d : BitVec 16)
  /-- ld: Load Doubleword (41_fx_load_store.md R265; DS-form). -/
  | ld (rt ra : RegNum) (ds : BitVec 14)
  /-- ldu: Load Doubleword with Update (41_fx_load_store.md R267; DS-form). -/
  | ldu (rt ra : RegNum) (ds : BitVec 14)
  /-- lwa: Load Word Algebraic (41_fx_load_store.md R262; DS-form). -/
  | lwa (rt ra : RegNum) (ds : BitVec 14)
  /-- fdivs[.]: Floating Divide Single (48_fp_instructions.md R623; A-form). -/
  | fdivs (frt fra frb : RegNum) (rc : Bool)
  /-- fsubs[.]: Floating Subtract Single (48_fp_instructions.md R619; A-form). -/
  | fsubs (frt fra frb : RegNum) (rc : Bool)
  /-- fadds[.]: Floating Add Single (48_fp_instructions.md R617; A-form). -/
  | fadds (frt fra frb : RegNum) (rc : Bool)
  /-- fsqrts[.]: Floating Square Root Single (49_optional.md R678; A-form). -/
  | fsqrts (frt frb : RegNum) (rc : Bool)
  /-- fres[.]: Floating Reciprocal Estimate Single (49_optional.md R683; A-form). -/
  | fres (frt frb : RegNum) (rc : Bool)
  /-- fmuls[.]: Floating Multiply Single (48_fp_instructions.md R621; A-form). -/
  | fmuls (frt fra frc : RegNum) (rc : Bool)
  /-- frsqrtes[.]: Floating Reciprocal Square Root Estimate Single (49_optional.md R685; A-form). -/
  | frsqrtes (frt frb : RegNum) (rc : Bool)
  /-- fmsubs[.]: Floating Multiply-Subtract Single (48_fp_instructions.md R635; A-form). -/
  | fmsubs (frt fra frb frc : RegNum) (rc : Bool)
  /-- fmadds[.]: Floating Multiply-Add Single (48_fp_instructions.md R633; A-form). -/
  | fmadds (frt fra frb frc : RegNum) (rc : Bool)
  /-- fnmsubs[.]: Floating Negative Multiply-Subtract Single (48_fp_instructions.md R639; A-form). -/
  | fnmsubs (frt fra frb frc : RegNum) (rc : Bool)
  /-- fnmadds[.]: Floating Negative Multiply-Add Single (48_fp_instructions.md R637; A-form). -/
  | fnmadds (frt fra frb frc : RegNum) (rc : Bool)
  /-- std: Store Doubleword (41_fx_load_store.md R281; DS-form). -/
  | std (rs ra : RegNum) (ds : BitVec 14)
  /-- stdu: Store Doubleword with Update (41_fx_load_store.md R283; DS-form). -/
  | stdu (rs ra : RegNum) (ds : BitVec 14)
  /-- fcmpu: Floating Compare Unordered (48_fp_instructions.md R651; X-form). -/
  | fcmpu (bf : BitVec 3) (fra frb : RegNum)
  /-- frsp[.]: Floating Round to Single-Precision (48_fp_instructions.md R641; X-form). -/
  | frsp (frt frb : RegNum) (rc : Bool)
  /-- fctiw[.]: Floating Convert To Integer Word (48_fp_instructions.md R644; X-form). -/
  | fctiw (frt frb : RegNum) (rc : Bool)
  /-- fctiwz[.]: Floating Convert To Integer Word with round toward Zero (48_fp_instructions.md R645; X-form). -/
  | fctiwz (frt frb : RegNum) (rc : Bool)
  /-- fdiv[.]: Floating Divide (48_fp_instructions.md R622; A-form). -/
  | fdiv (frt fra frb : RegNum) (rc : Bool)
  /-- fsub[.]: Floating Subtract (48_fp_instructions.md R618; A-form). -/
  | fsub (frt fra frb : RegNum) (rc : Bool)
  /-- fadd[.]: Floating Add (48_fp_instructions.md R616; A-form). -/
  | fadd (frt fra frb : RegNum) (rc : Bool)
  /-- fsqrt[.]: Floating Square Root (49_optional.md R677; A-form). -/
  | fsqrt (frt frb : RegNum) (rc : Bool)
  /-- fsel[.]: Floating Select (49_optional.md R686; A-form). -/
  | fsel (frt fra frb frc : RegNum) (rc : Bool)
  /-- fre[.]: Floating Reciprocal Estimate (49_optional.md R682; A-form). -/
  | fre (frt frb : RegNum) (rc : Bool)
  /-- fmul[.]: Floating Multiply (48_fp_instructions.md R620; A-form). -/
  | fmul (frt fra frc : RegNum) (rc : Bool)
  /-- frsqrte[.]: Floating Reciprocal Square Root Estimate (49_optional.md R684; A-form). -/
  | frsqrte (frt frb : RegNum) (rc : Bool)
  /-- fmsub[.]: Floating Multiply-Subtract (48_fp_instructions.md R634; A-form). -/
  | fmsub (frt fra frb frc : RegNum) (rc : Bool)
  /-- fmadd[.]: Floating Multiply-Add (48_fp_instructions.md R632; A-form). -/
  | fmadd (frt fra frb frc : RegNum) (rc : Bool)
  /-- fnmsub[.]: Floating Negative Multiply-Subtract (48_fp_instructions.md R638; A-form). -/
  | fnmsub (frt fra frb frc : RegNum) (rc : Bool)
  /-- fnmadd[.]: Floating Negative Multiply-Add (48_fp_instructions.md R636; A-form). -/
  | fnmadd (frt fra frb frc : RegNum) (rc : Bool)
  /-- fcmpo: Floating Compare Ordered (48_fp_instructions.md R652; X-form). -/
  | fcmpo (bf : BitVec 3) (fra frb : RegNum)
  /-- mtfsb1[.]: Move To FPSCR Bit 1 (48_fp_instructions.md R661; X-form). -/
  | mtfsb1 (bt : BitVec 5) (rc : Bool)
  /-- fneg[.]: Floating Negate (48_fp_load_store_move.md R612; X-form). -/
  | fneg (frt frb : RegNum) (rc : Bool)
  /-- mcrfs: Move to Condition Register from FPSCR (48_fp_instructions.md R657; X-form). -/
  | mcrfs (bf bfa : BitVec 3)
  /-- mtfsb0[.]: Move To FPSCR Bit 0 (48_fp_instructions.md R660; X-form). -/
  | mtfsb0 (bt : BitVec 5) (rc : Bool)
  /-- fmr[.]: Floating Move Register (48_fp_load_store_move.md R611; X-form). -/
  | fmr (frt frb : RegNum) (rc : Bool)
  /-- mtfsfi[.]: Move To FPSCR Field Immediate (48_fp_instructions.md R658; X-form). -/
  | mtfsfi (bf : BitVec 3) (u : BitVec 4) (rc : Bool)
  /-- fnabs[.]: Floating Negative Absolute Value (48_fp_load_store_move.md R614; X-form). -/
  | fnabs (frt frb : RegNum) (rc : Bool)
  /-- fabs[.]: Floating Absolute Value (48_fp_load_store_move.md R613; X-form). -/
  | fabs (frt frb : RegNum) (rc : Bool)
  /-- mffs[.]: Move From FPSCR (48_fp_instructions.md R656; X-form). -/
  | mffs (frt : RegNum) (rc : Bool)
  /-- mtfsf[.]: Move To FPSCR Fields (48_fp_instructions.md R659; XFL-form). -/
  | mtfsf (flm : BitVec 8) (frb : RegNum) (rc : Bool)
  /-- fctid[.]: Floating Convert To Integer Doubleword (48_fp_instructions.md R642; X-form). -/
  | fctid (frt frb : RegNum) (rc : Bool)
  /-- fctidz[.]: Floating Convert To Integer Doubleword with round toward Zero (48_fp_instructions.md R643; X-form). -/
  | fctidz (frt frb : RegNum) (rc : Bool)
  /-- fcfid[.]: Floating Convert From Integer Doubleword (48_fp_instructions.md R646; X-form). -/
  | fcfid (frt frb : RegNum) (rc : Bool)
deriving DecidableEq, Repr

end Sys2Proof
end

