-- ==== Sys2Proof/Decode.lean ====
section
/-!
DEFINITION. The decoder (spec/30_encoding.md R161), total on every word and rejecting by name, and after it
the encoder, from the same layout boxes (R142 to R156, R172).  Reserved bits are never tested (R24, R160);
the encoder writes them as 0.
-/
namespace Sys2Proof

open Machine

/-- Why a word is no Book I instruction (spec/30_encoding.md R162 to R164, R175). -/
inductive Rejection where
  /-- The word of all zeros: "guaranteed always to be an illegal instruction" (R163). -/
  | allZeros
  /-- Primary opcode 0, not all zeros: reserved class, none implemented (R163, R164; 90_conflicts.md C6). -/
  | reservedOpcode0
  /-- A primary opcode with no Book I instruction: illegal or dropped POWER opcodes (R163, R164, R173). -/
  | unusedPrimary
  /-- An unused extended opcode of primary opcode 19, 30, 31, 58, 59, 62 or 63 (R163, R164). -/
  | unusedExtended
  /-- A defined instruction of Book II or III, whose meaning is in no source of the spec (R175). -/
  | otherBook (mnemonic : String)
deriving DecidableEq, Repr

/-- SPR number of an XFX-form word: `insn[16:20] || insn[11:15]` (30_encoding.md R141, 46_fx_sysreg.md R480). -/
def splitSpr (w : Word) : BitVec 10 := fld w 16 5 ++ fld w 11 5

/-- SH of an MD-form or XS-form word: `insn[30] || insn[16:20]` (30_encoding.md R141). -/
def splitSh (w : Word) : BitVec 6 := fld w 30 1 ++ fld w 16 5

/-- MB or ME of an MD-form or MDS-form word: `insn[26] || insn[21:25]` (30_encoding.md R141). -/
def splitMb (w : Word) : BitVec 6 := fld w 26 1 ++ fld w 21 5

/-- Primary opcode 19, XL-form: bits 21:30 (R161, R172, R175). -/
def decode19 (w : Word) : Except Rejection Instr :=
  match (fld w 21 10).toNat with
  | 0 => .ok (.mcrf (fld w 6 3) (fld w 11 3))
  | 16 => .ok (.bclr (fld w 6 5) (fld w 11 5) (fld w 19 2) (bitAt w 31))
  | 18 => .error (.otherBook "rfid")
  | 33 => .ok (.crnor (fld w 6 5) (fld w 11 5) (fld w 16 5))
  | 129 => .ok (.crandc (fld w 6 5) (fld w 11 5) (fld w 16 5))
  | 150 => .error (.otherBook "isync")
  | 193 => .ok (.crxor (fld w 6 5) (fld w 11 5) (fld w 16 5))
  | 225 => .ok (.crnand (fld w 6 5) (fld w 11 5) (fld w 16 5))
  | 257 => .ok (.crand (fld w 6 5) (fld w 11 5) (fld w 16 5))
  | 274 => .error (.otherBook "hrfid")
  | 289 => .ok (.creqv (fld w 6 5) (fld w 11 5) (fld w 16 5))
  | 417 => .ok (.crorc (fld w 6 5) (fld w 11 5) (fld w 16 5))
  | 449 => .ok (.cror (fld w 6 5) (fld w 11 5) (fld w 16 5))
  | 528 => .ok (.bcctr (fld w 6 5) (fld w 11 5) (fld w 19 2) (bitAt w 31))
  | _ => .error .unusedExtended

/-- Primary opcode 30 with bit 27 = 1, MDS-form: bits 27:30 (R161, R171). -/
def decode30Mds (w : Word) : Except Rejection Instr :=
  match (fld w 27 4).toNat with
  | 8 => .ok (.rldcl (fld w 6 5) (fld w 11 5) (fld w 16 5) (splitMb w) (bitAt w 31))
  | 9 => .ok (.rldcr (fld w 6 5) (fld w 11 5) (fld w 16 5) (splitMb w) (bitAt w 31))
  | _ => .error .unusedExtended

/-- Primary opcode 30, MD-form: bits 27:29 (R161, R171). -/
def decode30 (w : Word) : Except Rejection Instr :=
  match (fld w 27 3).toNat with
  | 0 => .ok (.rldicl (fld w 6 5) (fld w 11 5) (splitSh w) (splitMb w) (bitAt w 31))
  | 1 => .ok (.rldicr (fld w 6 5) (fld w 11 5) (splitSh w) (splitMb w) (bitAt w 31))
  | 2 => .ok (.rldic (fld w 6 5) (fld w 11 5) (splitSh w) (splitMb w) (bitAt w 31))
  | 3 => .ok (.rldimi (fld w 6 5) (fld w 11 5) (splitSh w) (splitMb w) (bitAt w 31))
  | _ => decode30Mds w

/-- Primary opcode 31, XS-form: bits 21:29 (R161). -/
def decode31Xs (w : Word) : Except Rejection Instr :=
  match (fld w 21 9).toNat with
  | 413 => .ok (.sradi (fld w 6 5) (fld w 11 5) (splitSh w) (bitAt w 31))
  | _ => .error .unusedExtended

/-- Primary opcode 31, XO-form: bits 22:30; bit 21 is OE or reserved (R161). -/
def decode31Xo (w : Word) : Except Rejection Instr :=
  match (fld w 22 9).toNat with
  | 8 => .ok (.subfc (fld w 6 5) (fld w 11 5) (fld w 16 5) (bitAt w 21) (bitAt w 31))
  | 9 => .ok (.mulhdu (fld w 6 5) (fld w 11 5) (fld w 16 5) (bitAt w 31))
  | 10 => .ok (.addc (fld w 6 5) (fld w 11 5) (fld w 16 5) (bitAt w 21) (bitAt w 31))
  | 11 => .ok (.mulhwu (fld w 6 5) (fld w 11 5) (fld w 16 5) (bitAt w 31))
  | 40 => .ok (.subf (fld w 6 5) (fld w 11 5) (fld w 16 5) (bitAt w 21) (bitAt w 31))
  | 73 => .ok (.mulhd (fld w 6 5) (fld w 11 5) (fld w 16 5) (bitAt w 31))
  | 75 => .ok (.mulhw (fld w 6 5) (fld w 11 5) (fld w 16 5) (bitAt w 31))
  | 104 => .ok (.neg (fld w 6 5) (fld w 11 5) (bitAt w 21) (bitAt w 31))
  | 136 => .ok (.subfe (fld w 6 5) (fld w 11 5) (fld w 16 5) (bitAt w 21) (bitAt w 31))
  | 138 => .ok (.adde (fld w 6 5) (fld w 11 5) (fld w 16 5) (bitAt w 21) (bitAt w 31))
  | 200 => .ok (.subfze (fld w 6 5) (fld w 11 5) (bitAt w 21) (bitAt w 31))
  | 202 => .ok (.addze (fld w 6 5) (fld w 11 5) (bitAt w 21) (bitAt w 31))
  | 232 => .ok (.subfme (fld w 6 5) (fld w 11 5) (bitAt w 21) (bitAt w 31))
  | 233 => .ok (.mulld (fld w 6 5) (fld w 11 5) (fld w 16 5) (bitAt w 21) (bitAt w 31))
  | 234 => .ok (.addme (fld w 6 5) (fld w 11 5) (bitAt w 21) (bitAt w 31))
  | 235 => .ok (.mullw (fld w 6 5) (fld w 11 5) (fld w 16 5) (bitAt w 21) (bitAt w 31))
  | 266 => .ok (.add (fld w 6 5) (fld w 11 5) (fld w 16 5) (bitAt w 21) (bitAt w 31))
  | 457 => .ok (.divdu (fld w 6 5) (fld w 11 5) (fld w 16 5) (bitAt w 21) (bitAt w 31))
  | 459 => .ok (.divwu (fld w 6 5) (fld w 11 5) (fld w 16 5) (bitAt w 21) (bitAt w 31))
  | 489 => .ok (.divd (fld w 6 5) (fld w 11 5) (fld w 16 5) (bitAt w 21) (bitAt w 31))
  | 491 => .ok (.divw (fld w 6 5) (fld w 11 5) (fld w 16 5) (bitAt w 21) (bitAt w 31))
  | _ => decode31Xs w

/-- mfcr and mfocrf, told apart by bit 11 (R160, R172). -/
def decodeMfcr (w : Word) : Except Rejection Instr :=
  if bitAt w 11 then .ok (.mfocrf (fld w 6 5) (fld w 12 8)) else .ok (.mfcr (fld w 6 5))

/-- mtcrf and mtocrf, told apart by bit 11 (R160, R172). -/
def decodeMtcrf (w : Word) : Except Rejection Instr :=
  if bitAt w 11 then .ok (.mtocrf (fld w 6 5) (fld w 12 8)) else .ok (.mtcrf (fld w 6 5) (fld w 12 8))

/-- Primary opcode 31: bits 21:30 among the X-form and XFX-form instructions and the words of
Books II and III, then the XO-form list, then sradi (R161, R172, R175). -/
def decode31 (w : Word) : Except Rejection Instr :=
  match (fld w 21 10).toNat with
  | 0 => .ok (.cmp (fld w 6 3) (bitAt w 10) (fld w 11 5) (fld w 16 5))
  | 4 => .ok (.tw (fld w 6 5) (fld w 11 5) (fld w 16 5))
  | 19 => decodeMfcr w
  | 20 => .error (.otherBook "lwarx")
  | 21 => .ok (.ldx (fld w 6 5) (fld w 11 5) (fld w 16 5))
  | 23 => .ok (.lwzx (fld w 6 5) (fld w 11 5) (fld w 16 5))
  | 24 => .ok (.slw (fld w 6 5) (fld w 11 5) (fld w 16 5) (bitAt w 31))
  | 26 => .ok (.cntlzw (fld w 6 5) (fld w 11 5) (bitAt w 31))
  | 27 => .ok (.sld (fld w 6 5) (fld w 11 5) (fld w 16 5) (bitAt w 31))
  | 28 => .ok (.and (fld w 6 5) (fld w 11 5) (fld w 16 5) (bitAt w 31))
  | 32 => .ok (.cmpl (fld w 6 3) (bitAt w 10) (fld w 11 5) (fld w 16 5))
  | 53 => .ok (.ldux (fld w 6 5) (fld w 11 5) (fld w 16 5))
  | 54 => .error (.otherBook "dcbst")
  | 55 => .ok (.lwzux (fld w 6 5) (fld w 11 5) (fld w 16 5))
  | 58 => .ok (.cntlzd (fld w 6 5) (fld w 11 5) (bitAt w 31))
  | 60 => .ok (.andc (fld w 6 5) (fld w 11 5) (fld w 16 5) (bitAt w 31))
  | 68 => .ok (.td (fld w 6 5) (fld w 11 5) (fld w 16 5))
  | 83 => .error (.otherBook "mfmsr")
  | 84 => .error (.otherBook "ldarx")
  | 86 => .error (.otherBook "dcbf")
  | 87 => .ok (.lbzx (fld w 6 5) (fld w 11 5) (fld w 16 5))
  | 119 => .ok (.lbzux (fld w 6 5) (fld w 11 5) (fld w 16 5))
  | 122 => .ok (.popcntb (fld w 6 5) (fld w 11 5))
  | 124 => .ok (.nor (fld w 6 5) (fld w 11 5) (fld w 16 5) (bitAt w 31))
  | 144 => decodeMtcrf w
  | 146 => .error (.otherBook "mtmsr")
  | 149 => .ok (.stdx (fld w 6 5) (fld w 11 5) (fld w 16 5))
  | 150 => .error (.otherBook "stwcx.")
  | 151 => .ok (.stwx (fld w 6 5) (fld w 11 5) (fld w 16 5))
  | 178 => .error (.otherBook "mtmsrd")
  | 181 => .ok (.stdux (fld w 6 5) (fld w 11 5) (fld w 16 5))
  | 183 => .ok (.stwux (fld w 6 5) (fld w 11 5) (fld w 16 5))
  | 210 => .error (.otherBook "mtsr")
  | 214 => .error (.otherBook "stdcx.")
  | 215 => .ok (.stbx (fld w 6 5) (fld w 11 5) (fld w 16 5))
  | 242 => .error (.otherBook "mtsrin")
  | 246 => .error (.otherBook "dcbtst")
  | 247 => .ok (.stbux (fld w 6 5) (fld w 11 5) (fld w 16 5))
  | 278 => .error (.otherBook "dcbt")
  | 279 => .ok (.lhzx (fld w 6 5) (fld w 11 5) (fld w 16 5))
  | 284 => .ok (.eqv (fld w 6 5) (fld w 11 5) (fld w 16 5) (bitAt w 31))
  | 306 => .error (.otherBook "tlbie")
  | 310 => .error (.otherBook "eciwx")
  | 311 => .ok (.lhzux (fld w 6 5) (fld w 11 5) (fld w 16 5))
  | 316 => .ok (.xor (fld w 6 5) (fld w 11 5) (fld w 16 5) (bitAt w 31))
  | 339 => .ok (.mfspr (fld w 6 5) (splitSpr w))
  | 341 => .ok (.lwax (fld w 6 5) (fld w 11 5) (fld w 16 5))
  | 343 => .ok (.lhax (fld w 6 5) (fld w 11 5) (fld w 16 5))
  | 370 => .error (.otherBook "tlbia")
  | 371 => .error (.otherBook "mftb")
  | 373 => .ok (.lwaux (fld w 6 5) (fld w 11 5) (fld w 16 5))
  | 375 => .ok (.lhaux (fld w 6 5) (fld w 11 5) (fld w 16 5))
  | 402 => .error (.otherBook "slbmte")
  | 407 => .ok (.sthx (fld w 6 5) (fld w 11 5) (fld w 16 5))
  | 412 => .ok (.orc (fld w 6 5) (fld w 11 5) (fld w 16 5) (bitAt w 31))
  | 434 => .error (.otherBook "slbie")
  | 438 => .error (.otherBook "ecowx")
  | 439 => .ok (.sthux (fld w 6 5) (fld w 11 5) (fld w 16 5))
  | 444 => .ok (.or (fld w 6 5) (fld w 11 5) (fld w 16 5) (bitAt w 31))
  | 467 => .ok (.mtspr (fld w 6 5) (splitSpr w))
  | 476 => .ok (.nand (fld w 6 5) (fld w 11 5) (fld w 16 5) (bitAt w 31))
  | 498 => .error (.otherBook "slbia")
  | 512 => .ok (.mcrxr (fld w 6 3))
  | 533 => .ok (.lswx (fld w 6 5) (fld w 11 5) (fld w 16 5))
  | 534 => .ok (.lwbrx (fld w 6 5) (fld w 11 5) (fld w 16 5))
  | 535 => .ok (.lfsx (fld w 6 5) (fld w 11 5) (fld w 16 5))
  | 536 => .ok (.srw (fld w 6 5) (fld w 11 5) (fld w 16 5) (bitAt w 31))
  | 539 => .ok (.srd (fld w 6 5) (fld w 11 5) (fld w 16 5) (bitAt w 31))
  | 566 => .error (.otherBook "tlbsync")
  | 567 => .ok (.lfsux (fld w 6 5) (fld w 11 5) (fld w 16 5))
  | 595 => .error (.otherBook "mfsr")
  | 597 => .ok (.lswi (fld w 6 5) (fld w 11 5) (fld w 16 5))
  | 598 => .error (.otherBook "sync")
  | 599 => .ok (.lfdx (fld w 6 5) (fld w 11 5) (fld w 16 5))
  | 631 => .ok (.lfdux (fld w 6 5) (fld w 11 5) (fld w 16 5))
  | 659 => .error (.otherBook "mfsrin")
  | 661 => .ok (.stswx (fld w 6 5) (fld w 11 5) (fld w 16 5))
  | 662 => .ok (.stwbrx (fld w 6 5) (fld w 11 5) (fld w 16 5))
  | 663 => .ok (.stfsx (fld w 6 5) (fld w 11 5) (fld w 16 5))
  | 695 => .ok (.stfsux (fld w 6 5) (fld w 11 5) (fld w 16 5))
  | 725 => .ok (.stswi (fld w 6 5) (fld w 11 5) (fld w 16 5))
  | 727 => .ok (.stfdx (fld w 6 5) (fld w 11 5) (fld w 16 5))
  | 759 => .ok (.stfdux (fld w 6 5) (fld w 11 5) (fld w 16 5))
  | 790 => .ok (.lhbrx (fld w 6 5) (fld w 11 5) (fld w 16 5))
  | 792 => .ok (.sraw (fld w 6 5) (fld w 11 5) (fld w 16 5) (bitAt w 31))
  | 794 => .ok (.srad (fld w 6 5) (fld w 11 5) (fld w 16 5) (bitAt w 31))
  | 824 => .ok (.srawi (fld w 6 5) (fld w 11 5) (fld w 16 5) (bitAt w 31))
  | 851 => .error (.otherBook "slbmfev")
  | 854 => .error (.otherBook "eieio")
  | 915 => .error (.otherBook "slbmfee")
  | 918 => .ok (.sthbrx (fld w 6 5) (fld w 11 5) (fld w 16 5))
  | 922 => .ok (.extsh (fld w 6 5) (fld w 11 5) (bitAt w 31))
  | 954 => .ok (.extsb (fld w 6 5) (fld w 11 5) (bitAt w 31))
  | 982 => .error (.otherBook "icbi")
  | 983 => .ok (.stfiwx (fld w 6 5) (fld w 11 5) (fld w 16 5))
  | 986 => .ok (.extsw (fld w 6 5) (fld w 11 5) (bitAt w 31))
  | 1014 => .error (.otherBook "dcbz")
  | _ => decode31Xo w

/-- Primary opcode 58, DS-form: bits 30:31 (R161, R171). -/
def decode58 (w : Word) : Except Rejection Instr :=
  match (fld w 30 2).toNat with
  | 0 => .ok (.ld (fld w 6 5) (fld w 11 5) (fld w 16 14))
  | 1 => .ok (.ldu (fld w 6 5) (fld w 11 5) (fld w 16 14))
  | 2 => .ok (.lwa (fld w 6 5) (fld w 11 5) (fld w 16 14))
  | _ => .error .unusedExtended

/-- Primary opcode 59, A-form: bits 26:30 (R161, R172). -/
def decode59 (w : Word) : Except Rejection Instr :=
  match (fld w 26 5).toNat with
  | 18 => .ok (.fdivs (fld w 6 5) (fld w 11 5) (fld w 16 5) (bitAt w 31))
  | 20 => .ok (.fsubs (fld w 6 5) (fld w 11 5) (fld w 16 5) (bitAt w 31))
  | 21 => .ok (.fadds (fld w 6 5) (fld w 11 5) (fld w 16 5) (bitAt w 31))
  | 22 => .ok (.fsqrts (fld w 6 5) (fld w 16 5) (bitAt w 31))
  | 24 => .ok (.fres (fld w 6 5) (fld w 16 5) (bitAt w 31))
  | 25 => .ok (.fmuls (fld w 6 5) (fld w 11 5) (fld w 21 5) (bitAt w 31))
  | 26 => .ok (.frsqrtes (fld w 6 5) (fld w 16 5) (bitAt w 31))
  | 28 => .ok (.fmsubs (fld w 6 5) (fld w 11 5) (fld w 16 5) (fld w 21 5) (bitAt w 31))
  | 29 => .ok (.fmadds (fld w 6 5) (fld w 11 5) (fld w 16 5) (fld w 21 5) (bitAt w 31))
  | 30 => .ok (.fnmsubs (fld w 6 5) (fld w 11 5) (fld w 16 5) (fld w 21 5) (bitAt w 31))
  | 31 => .ok (.fnmadds (fld w 6 5) (fld w 11 5) (fld w 16 5) (fld w 21 5) (bitAt w 31))
  | _ => .error .unusedExtended

/-- Primary opcode 62, DS-form: bits 30:31 (R161, R171). -/
def decode62 (w : Word) : Except Rejection Instr :=
  match (fld w 30 2).toNat with
  | 0 => .ok (.std (fld w 6 5) (fld w 11 5) (fld w 16 14))
  | 1 => .ok (.stdu (fld w 6 5) (fld w 11 5) (fld w 16 14))
  | _ => .error .unusedExtended

/-- Primary opcode 63, X-form and XFL-form: bits 21:30 (R161, R172). -/
def decode63X (w : Word) : Except Rejection Instr :=
  match (fld w 21 10).toNat with
  | 0 => .ok (.fcmpu (fld w 6 3) (fld w 11 5) (fld w 16 5))
  | 12 => .ok (.frsp (fld w 6 5) (fld w 16 5) (bitAt w 31))
  | 14 => .ok (.fctiw (fld w 6 5) (fld w 16 5) (bitAt w 31))
  | 15 => .ok (.fctiwz (fld w 6 5) (fld w 16 5) (bitAt w 31))
  | 32 => .ok (.fcmpo (fld w 6 3) (fld w 11 5) (fld w 16 5))
  | 38 => .ok (.mtfsb1 (fld w 6 5) (bitAt w 31))
  | 40 => .ok (.fneg (fld w 6 5) (fld w 16 5) (bitAt w 31))
  | 64 => .ok (.mcrfs (fld w 6 3) (fld w 11 3))
  | 70 => .ok (.mtfsb0 (fld w 6 5) (bitAt w 31))
  | 72 => .ok (.fmr (fld w 6 5) (fld w 16 5) (bitAt w 31))
  | 134 => .ok (.mtfsfi (fld w 6 3) (fld w 16 4) (bitAt w 31))
  | 136 => .ok (.fnabs (fld w 6 5) (fld w 16 5) (bitAt w 31))
  | 264 => .ok (.fabs (fld w 6 5) (fld w 16 5) (bitAt w 31))
  | 583 => .ok (.mffs (fld w 6 5) (bitAt w 31))
  | 711 => .ok (.mtfsf (fld w 7 8) (fld w 16 5) (bitAt w 31))
  | 814 => .ok (.fctid (fld w 6 5) (fld w 16 5) (bitAt w 31))
  | 815 => .ok (.fctidz (fld w 6 5) (fld w 16 5) (bitAt w 31))
  | 846 => .ok (.fcfid (fld w 6 5) (fld w 16 5) (bitAt w 31))
  | _ => .error .unusedExtended

/-- Primary opcode 63: the A-form instructions by bits 26:30, then the others (R161, R172). -/
def decode63 (w : Word) : Except Rejection Instr :=
  match (fld w 26 5).toNat with
  | 18 => .ok (.fdiv (fld w 6 5) (fld w 11 5) (fld w 16 5) (bitAt w 31))
  | 20 => .ok (.fsub (fld w 6 5) (fld w 11 5) (fld w 16 5) (bitAt w 31))
  | 21 => .ok (.fadd (fld w 6 5) (fld w 11 5) (fld w 16 5) (bitAt w 31))
  | 22 => .ok (.fsqrt (fld w 6 5) (fld w 16 5) (bitAt w 31))
  | 23 => .ok (.fsel (fld w 6 5) (fld w 11 5) (fld w 16 5) (fld w 21 5) (bitAt w 31))
  | 24 => .ok (.fre (fld w 6 5) (fld w 16 5) (bitAt w 31))
  | 25 => .ok (.fmul (fld w 6 5) (fld w 11 5) (fld w 21 5) (bitAt w 31))
  | 26 => .ok (.frsqrte (fld w 6 5) (fld w 16 5) (bitAt w 31))
  | 28 => .ok (.fmsub (fld w 6 5) (fld w 11 5) (fld w 16 5) (fld w 21 5) (bitAt w 31))
  | 29 => .ok (.fmadd (fld w 6 5) (fld w 11 5) (fld w 16 5) (fld w 21 5) (bitAt w 31))
  | 30 => .ok (.fnmsub (fld w 6 5) (fld w 11 5) (fld w 16 5) (fld w 21 5) (bitAt w 31))
  | 31 => .ok (.fnmadd (fld w 6 5) (fld w 11 5) (fld w 16 5) (fld w 21 5) (bitAt w 31))
  | _ => decode63X w

/-- The decoder: the instruction a word is, or why it is none (R161, R164). -/
def decode (w : Word) : Except Rejection Instr :=
  match (fld w 0 6).toNat with
  | 0 => if w = 0 then .error .allZeros else .error .reservedOpcode0
  | 2 => .ok (.tdi (fld w 6 5) (fld w 11 5) (fld w 16 16))
  | 3 => .ok (.twi (fld w 6 5) (fld w 11 5) (fld w 16 16))
  | 7 => .ok (.mulli (fld w 6 5) (fld w 11 5) (fld w 16 16))
  | 8 => .ok (.subfic (fld w 6 5) (fld w 11 5) (fld w 16 16))
  | 10 => .ok (.cmpli (fld w 6 3) (bitAt w 10) (fld w 11 5) (fld w 16 16))
  | 11 => .ok (.cmpi (fld w 6 3) (bitAt w 10) (fld w 11 5) (fld w 16 16))
  | 12 => .ok (.addic (fld w 6 5) (fld w 11 5) (fld w 16 16))
  | 13 => .ok (.addicRec (fld w 6 5) (fld w 11 5) (fld w 16 16))
  | 14 => .ok (.addi (fld w 6 5) (fld w 11 5) (fld w 16 16))
  | 15 => .ok (.addis (fld w 6 5) (fld w 11 5) (fld w 16 16))
  | 16 => .ok (.bc (fld w 6 5) (fld w 11 5) (fld w 16 14) (bitAt w 30) (bitAt w 31))
  | 17 => .ok (.sc (fld w 20 7) (bitAt w 30))
  | 18 => .ok (.b (fld w 6 24) (bitAt w 30) (bitAt w 31))
  | 19 => decode19 w
  | 20 => .ok (.rlwimi (fld w 6 5) (fld w 11 5) (fld w 16 5) (fld w 21 5) (fld w 26 5) (bitAt w 31))
  | 21 => .ok (.rlwinm (fld w 6 5) (fld w 11 5) (fld w 16 5) (fld w 21 5) (fld w 26 5) (bitAt w 31))
  | 23 => .ok (.rlwnm (fld w 6 5) (fld w 11 5) (fld w 16 5) (fld w 21 5) (fld w 26 5) (bitAt w 31))
  | 24 => .ok (.ori (fld w 6 5) (fld w 11 5) (fld w 16 16))
  | 25 => .ok (.oris (fld w 6 5) (fld w 11 5) (fld w 16 16))
  | 26 => .ok (.xori (fld w 6 5) (fld w 11 5) (fld w 16 16))
  | 27 => .ok (.xoris (fld w 6 5) (fld w 11 5) (fld w 16 16))
  | 28 => .ok (.andiRec (fld w 6 5) (fld w 11 5) (fld w 16 16))
  | 29 => .ok (.andisRec (fld w 6 5) (fld w 11 5) (fld w 16 16))
  | 30 => decode30 w
  | 31 => decode31 w
  | 32 => .ok (.lwz (fld w 6 5) (fld w 11 5) (fld w 16 16))
  | 33 => .ok (.lwzu (fld w 6 5) (fld w 11 5) (fld w 16 16))
  | 34 => .ok (.lbz (fld w 6 5) (fld w 11 5) (fld w 16 16))
  | 35 => .ok (.lbzu (fld w 6 5) (fld w 11 5) (fld w 16 16))
  | 36 => .ok (.stw (fld w 6 5) (fld w 11 5) (fld w 16 16))
  | 37 => .ok (.stwu (fld w 6 5) (fld w 11 5) (fld w 16 16))
  | 38 => .ok (.stb (fld w 6 5) (fld w 11 5) (fld w 16 16))
  | 39 => .ok (.stbu (fld w 6 5) (fld w 11 5) (fld w 16 16))
  | 40 => .ok (.lhz (fld w 6 5) (fld w 11 5) (fld w 16 16))
  | 41 => .ok (.lhzu (fld w 6 5) (fld w 11 5) (fld w 16 16))
  | 42 => .ok (.lha (fld w 6 5) (fld w 11 5) (fld w 16 16))
  | 43 => .ok (.lhau (fld w 6 5) (fld w 11 5) (fld w 16 16))
  | 44 => .ok (.sth (fld w 6 5) (fld w 11 5) (fld w 16 16))
  | 45 => .ok (.sthu (fld w 6 5) (fld w 11 5) (fld w 16 16))
  | 46 => .ok (.lmw (fld w 6 5) (fld w 11 5) (fld w 16 16))
  | 47 => .ok (.stmw (fld w 6 5) (fld w 11 5) (fld w 16 16))
  | 48 => .ok (.lfs (fld w 6 5) (fld w 11 5) (fld w 16 16))
  | 49 => .ok (.lfsu (fld w 6 5) (fld w 11 5) (fld w 16 16))
  | 50 => .ok (.lfd (fld w 6 5) (fld w 11 5) (fld w 16 16))
  | 51 => .ok (.lfdu (fld w 6 5) (fld w 11 5) (fld w 16 16))
  | 52 => .ok (.stfs (fld w 6 5) (fld w 11 5) (fld w 16 16))
  | 53 => .ok (.stfsu (fld w 6 5) (fld w 11 5) (fld w 16 16))
  | 54 => .ok (.stfd (fld w 6 5) (fld w 11 5) (fld w 16 16))
  | 55 => .ok (.stfdu (fld w 6 5) (fld w 11 5) (fld w 16 16))
  | 58 => decode58 w
  | 59 => decode59 w
  | 62 => decode62 w
  | 63 => decode63 w
  | _ => .error .unusedPrimary

/-- The word held by four bytes, the first at the lowest address (20_memory.md R92: "Each PowerPC
instruction occupies an aligned word", most significant byte first). -/
def wordOfBytes (b0 b1 b2 b3 : Byte) : Word := b0 ++ b1 ++ b2 ++ b3

/-- The four bytes of a word, lowest address first (20_memory.md R92). -/
def bytesOfWord (w : Word) : List Byte := [fld w 0 8, fld w 8 8, fld w 16 8, fld w 24 8]

/-- The decoder on bytes as storage holds them, with the bytes after the instruction; `none` when fewer
than four bytes remain or when the word is no Book I instruction. -/
def decodeBytes : List Byte → Option (Instr × List Byte)
  | b0 :: b1 :: b2 :: b3 :: rest =>
    match decode (wordOfBytes b0 b1 b2 b3) with
    | .ok i => some (i, rest)
    | .error _ => none
  | _ => none

/-- The instruction the decoder reads from the bits `w` of a table row of `nbits` bits: every Book I
instruction is one 32-bit word, whose bit 0 in the table's numbering is the least significant. -/
def decodeTableWord (nbits w : Nat) : Option Instr :=
  (decodeBytes (bytesOfWord (BitVec.ofNat 32 (w % 2 ^ nbits)))).map Prod.fst

/-! ## Encoder -/

/-- D-form (R145). -/
def dForm (op : BitVec 6) (a b : BitVec 5) (d : BitVec 16) : Word := op ++ a ++ b ++ d

/-- I-form (R142). -/
def iForm (op : BitVec 6) (li : BitVec 24) (aa lk : Bool) : Word :=
  op ++ li ++ BitVec.ofBool aa ++ BitVec.ofBool lk

/-- B-form (R143). -/
def bForm (op : BitVec 6) (bo bi : BitVec 5) (bd : BitVec 14) (aa lk : Bool) : Word :=
  op ++ bo ++ bi ++ bd ++ BitVec.ofBool aa ++ BitVec.ofBool lk

/-- SC-form (R144). -/
def scForm (op : BitVec 6) (lev : BitVec 7) (bit30 : Bool) : Word :=
  op ++ (0 : BitVec 14) ++ lev ++ (0 : BitVec 3) ++ BitVec.ofBool bit30 ++ (0 : BitVec 1)

/-- DS-form (R146). -/
def dsForm (op : BitVec 6) (a b : BitVec 5) (ds : BitVec 14) (xo : BitVec 2) : Word :=
  op ++ a ++ b ++ ds ++ xo

/-- X-form and XL-form (R147, R148). -/
def xForm (op : BitVec 6) (a b c : BitVec 5) (xo : BitVec 10) (r : Bool) : Word :=
  op ++ a ++ b ++ c ++ xo ++ BitVec.ofBool r

/-- XFX-form with FXM (R149). -/
def fxmForm (op : BitVec 6) (a : BitVec 5) (one : Bool) (fxm : BitVec 8) (xo : BitVec 10) : Word :=
  op ++ a ++ BitVec.ofBool one ++ fxm ++ (0 : BitVec 1) ++ xo ++ (0 : BitVec 1)

/-- XFX-form with spr: the SPR number's low half comes first (R149, R141). -/
def sprForm (op : BitVec 6) (a : BitVec 5) (spr : BitVec 10) (xo : BitVec 10) : Word :=
  op ++ a ++ fld spr 5 5 ++ fld spr 0 5 ++ xo ++ (0 : BitVec 1)

/-- XFL-form (R150). -/
def xflForm (op : BitVec 6) (flm : BitVec 8) (b : BitVec 5) (xo : BitVec 10) (r : Bool) : Word :=
  op ++ (0 : BitVec 1) ++ flm ++ (0 : BitVec 1) ++ b ++ xo ++ BitVec.ofBool r

/-- XS-form (R151): sh[0:4], then XO, then sh[5]. -/
def xsForm (op : BitVec 6) (a b : BitVec 5) (sh : BitVec 6) (xo : BitVec 9) (r : Bool) : Word :=
  op ++ a ++ b ++ fld sh 1 5 ++ xo ++ fld sh 0 1 ++ BitVec.ofBool r

/-- XO-form (R152). -/
def xoForm (op : BitVec 6) (a b c : BitVec 5) (oe : Bool) (xo : BitVec 9) (r : Bool) : Word :=
  op ++ a ++ b ++ c ++ BitVec.ofBool oe ++ xo ++ BitVec.ofBool r

/-- A-form (R153). -/
def aForm (op : BitVec 6) (a b c d : BitVec 5) (xo : BitVec 5) (r : Bool) : Word :=
  op ++ a ++ b ++ c ++ d ++ xo ++ BitVec.ofBool r

/-- M-form (R154). -/
def mForm (op : BitVec 6) (a b c mb me : BitVec 5) (r : Bool) : Word :=
  op ++ a ++ b ++ c ++ mb ++ me ++ BitVec.ofBool r

/-- MD-form (R155): sh[0:4], mb[0:5], XO, sh[5]. -/
def mdForm (op : BitVec 6) (a b : BitVec 5) (sh mb : BitVec 6) (xo : BitVec 3) (r : Bool) : Word :=
  op ++ a ++ b ++ fld sh 1 5 ++ fld mb 1 5 ++ fld mb 0 1 ++ xo ++ fld sh 0 1 ++ BitVec.ofBool r

/-- MDS-form (R156). -/
def mdsForm (op : BitVec 6) (a b c : BitVec 5) (mb : BitVec 6) (xo : BitVec 4) (r : Bool) : Word :=
  op ++ a ++ b ++ c ++ fld mb 1 5 ++ fld mb 0 1 ++ xo ++ BitVec.ofBool r

/-- A CR field number in a 5-bit slot, the two bits after it reserved. -/
def bfSlot (bf : BitVec 3) : BitVec 5 := bf ++ (0 : BitVec 2)

/-- BF and L of a compare: `BF / L` (R145, R147). -/
def cmpSlot (bf : BitVec 3) (l : Bool) : BitVec 5 := bf ++ (0 : BitVec 1) ++ BitVec.ofBool l

/-- BH in bits 19:20, bits 16:18 reserved (R148). -/
def bhSlot (bh : BitVec 2) : BitVec 5 := (0 : BitVec 3) ++ bh

/-- U in bits 16:19, bit 20 reserved (R147). -/
def uSlot (u : BitVec 4) : BitVec 5 := u ++ (0 : BitVec 1)

/-- The word of an instruction, reserved bits 0 (R142 to R156, R172). -/
def encode (i : Instr) : Word :=
  match i with
  | .tdi tos ra si => dForm 2 tos ra si
  | .twi tos ra si => dForm 3 tos ra si
  | .mulli rt ra si => dForm 7 rt ra si
  | .subfic rt ra si => dForm 8 rt ra si
  | .cmpli bf l ra ui => dForm 10 (cmpSlot bf l) ra ui
  | .cmpi bf l ra si => dForm 11 (cmpSlot bf l) ra si
  | .addic rt ra si => dForm 12 rt ra si
  | .addicRec rt ra si => dForm 13 rt ra si
  | .addi rt ra si => dForm 14 rt ra si
  | .addis rt ra si => dForm 15 rt ra si
  | .bc bo bi bd aa lk => bForm 16 bo bi bd aa lk
  | .sc lev bit30 => scForm 17 lev bit30
  | .b li aa lk => iForm 18 li aa lk
  | .mcrf bf bfa => xForm 19 (bfSlot bf) (bfSlot bfa) 0 0 false
  | .bclr bo bi bh lk => xForm 19 bo bi (bhSlot bh) 16 lk
  | .crnor bt ba bb => xForm 19 bt ba bb 33 false
  | .crandc bt ba bb => xForm 19 bt ba bb 129 false
  | .crxor bt ba bb => xForm 19 bt ba bb 193 false
  | .crnand bt ba bb => xForm 19 bt ba bb 225 false
  | .crand bt ba bb => xForm 19 bt ba bb 257 false
  | .creqv bt ba bb => xForm 19 bt ba bb 289 false
  | .crorc bt ba bb => xForm 19 bt ba bb 417 false
  | .cror bt ba bb => xForm 19 bt ba bb 449 false
  | .bcctr bo bi bh lk => xForm 19 bo bi (bhSlot bh) 528 lk
  | .rlwimi rs ra sh mb me rc => mForm 20 rs ra sh mb me rc
  | .rlwinm rs ra sh mb me rc => mForm 21 rs ra sh mb me rc
  | .rlwnm rs ra rb mb me rc => mForm 23 rs ra rb mb me rc
  | .ori rs ra ui => dForm 24 rs ra ui
  | .oris rs ra ui => dForm 25 rs ra ui
  | .xori rs ra ui => dForm 26 rs ra ui
  | .xoris rs ra ui => dForm 27 rs ra ui
  | .andiRec rs ra ui => dForm 28 rs ra ui
  | .andisRec rs ra ui => dForm 29 rs ra ui
  | .rldicl rs ra sh mb rc => mdForm 30 rs ra sh mb 0 rc
  | .rldicr rs ra sh me rc => mdForm 30 rs ra sh me 1 rc
  | .rldic rs ra sh mb rc => mdForm 30 rs ra sh mb 2 rc
  | .rldimi rs ra sh mb rc => mdForm 30 rs ra sh mb 3 rc
  | .rldcl rs ra rb mb rc => mdsForm 30 rs ra rb mb 8 rc
  | .rldcr rs ra rb me rc => mdsForm 30 rs ra rb me 9 rc
  | .cmp bf l ra rb => xForm 31 (cmpSlot bf l) ra rb 0 false
  | .tw tos ra rb => xForm 31 tos ra rb 4 false
  | .subfc rt ra rb oe rc => xoForm 31 rt ra rb oe 8 rc
  | .mulhdu rt ra rb rc => xoForm 31 rt ra rb false 9 rc
  | .addc rt ra rb oe rc => xoForm 31 rt ra rb oe 10 rc
  | .mulhwu rt ra rb rc => xoForm 31 rt ra rb false 11 rc
  | .mfcr rt => fxmForm 31 rt false 0 19
  | .mfocrf rt fxm => fxmForm 31 rt true fxm 19
  | .ldx rt ra rb => xForm 31 rt ra rb 21 false
  | .lwzx rt ra rb => xForm 31 rt ra rb 23 false
  | .slw rs ra rb rc => xForm 31 rs ra rb 24 rc
  | .cntlzw rs ra rc => xForm 31 rs ra 0 26 rc
  | .sld rs ra rb rc => xForm 31 rs ra rb 27 rc
  | .and rs ra rb rc => xForm 31 rs ra rb 28 rc
  | .cmpl bf l ra rb => xForm 31 (cmpSlot bf l) ra rb 32 false
  | .subf rt ra rb oe rc => xoForm 31 rt ra rb oe 40 rc
  | .ldux rt ra rb => xForm 31 rt ra rb 53 false
  | .lwzux rt ra rb => xForm 31 rt ra rb 55 false
  | .cntlzd rs ra rc => xForm 31 rs ra 0 58 rc
  | .andc rs ra rb rc => xForm 31 rs ra rb 60 rc
  | .td tos ra rb => xForm 31 tos ra rb 68 false
  | .mulhd rt ra rb rc => xoForm 31 rt ra rb false 73 rc
  | .mulhw rt ra rb rc => xoForm 31 rt ra rb false 75 rc
  | .lbzx rt ra rb => xForm 31 rt ra rb 87 false
  | .neg rt ra oe rc => xoForm 31 rt ra 0 oe 104 rc
  | .lbzux rt ra rb => xForm 31 rt ra rb 119 false
  | .popcntb rs ra => xForm 31 rs ra 0 122 false
  | .nor rs ra rb rc => xForm 31 rs ra rb 124 rc
  | .subfe rt ra rb oe rc => xoForm 31 rt ra rb oe 136 rc
  | .adde rt ra rb oe rc => xoForm 31 rt ra rb oe 138 rc
  | .mtcrf rs fxm => fxmForm 31 rs false fxm 144
  | .mtocrf rs fxm => fxmForm 31 rs true fxm 144
  | .stdx rs ra rb => xForm 31 rs ra rb 149 false
  | .stwx rs ra rb => xForm 31 rs ra rb 151 false
  | .stdux rs ra rb => xForm 31 rs ra rb 181 false
  | .stwux rs ra rb => xForm 31 rs ra rb 183 false
  | .subfze rt ra oe rc => xoForm 31 rt ra 0 oe 200 rc
  | .addze rt ra oe rc => xoForm 31 rt ra 0 oe 202 rc
  | .stbx rs ra rb => xForm 31 rs ra rb 215 false
  | .subfme rt ra oe rc => xoForm 31 rt ra 0 oe 232 rc
  | .mulld rt ra rb oe rc => xoForm 31 rt ra rb oe 233 rc
  | .addme rt ra oe rc => xoForm 31 rt ra 0 oe 234 rc
  | .mullw rt ra rb oe rc => xoForm 31 rt ra rb oe 235 rc
  | .stbux rs ra rb => xForm 31 rs ra rb 247 false
  | .add rt ra rb oe rc => xoForm 31 rt ra rb oe 266 rc
  | .lhzx rt ra rb => xForm 31 rt ra rb 279 false
  | .eqv rs ra rb rc => xForm 31 rs ra rb 284 rc
  | .lhzux rt ra rb => xForm 31 rt ra rb 311 false
  | .xor rs ra rb rc => xForm 31 rs ra rb 316 rc
  | .mfspr rt spr => sprForm 31 rt spr 339
  | .lwax rt ra rb => xForm 31 rt ra rb 341 false
  | .lhax rt ra rb => xForm 31 rt ra rb 343 false
  | .lwaux rt ra rb => xForm 31 rt ra rb 373 false
  | .lhaux rt ra rb => xForm 31 rt ra rb 375 false
  | .sthx rs ra rb => xForm 31 rs ra rb 407 false
  | .orc rs ra rb rc => xForm 31 rs ra rb 412 rc
  | .sradi rs ra sh rc => xsForm 31 rs ra sh 413 rc
  | .sthux rs ra rb => xForm 31 rs ra rb 439 false
  | .or rs ra rb rc => xForm 31 rs ra rb 444 rc
  | .divdu rt ra rb oe rc => xoForm 31 rt ra rb oe 457 rc
  | .divwu rt ra rb oe rc => xoForm 31 rt ra rb oe 459 rc
  | .mtspr rs spr => sprForm 31 rs spr 467
  | .nand rs ra rb rc => xForm 31 rs ra rb 476 rc
  | .divd rt ra rb oe rc => xoForm 31 rt ra rb oe 489 rc
  | .divw rt ra rb oe rc => xoForm 31 rt ra rb oe 491 rc
  | .mcrxr bf => xForm 31 (bfSlot bf) 0 0 512 false
  | .lswx rt ra rb => xForm 31 rt ra rb 533 false
  | .lwbrx rt ra rb => xForm 31 rt ra rb 534 false
  | .lfsx frt ra rb => xForm 31 frt ra rb 535 false
  | .srw rs ra rb rc => xForm 31 rs ra rb 536 rc
  | .srd rs ra rb rc => xForm 31 rs ra rb 539 rc
  | .lfsux frt ra rb => xForm 31 frt ra rb 567 false
  | .lswi rt ra nb => xForm 31 rt ra nb 597 false
  | .lfdx frt ra rb => xForm 31 frt ra rb 599 false
  | .lfdux frt ra rb => xForm 31 frt ra rb 631 false
  | .stswx rs ra rb => xForm 31 rs ra rb 661 false
  | .stwbrx rs ra rb => xForm 31 rs ra rb 662 false
  | .stfsx frs ra rb => xForm 31 frs ra rb 663 false
  | .stfsux frs ra rb => xForm 31 frs ra rb 695 false
  | .stswi rs ra nb => xForm 31 rs ra nb 725 false
  | .stfdx frs ra rb => xForm 31 frs ra rb 727 false
  | .stfdux frs ra rb => xForm 31 frs ra rb 759 false
  | .lhbrx rt ra rb => xForm 31 rt ra rb 790 false
  | .sraw rs ra rb rc => xForm 31 rs ra rb 792 rc
  | .srad rs ra rb rc => xForm 31 rs ra rb 794 rc
  | .srawi rs ra sh rc => xForm 31 rs ra sh 824 rc
  | .sthbrx rs ra rb => xForm 31 rs ra rb 918 false
  | .extsh rs ra rc => xForm 31 rs ra 0 922 rc
  | .extsb rs ra rc => xForm 31 rs ra 0 954 rc
  | .stfiwx frs ra rb => xForm 31 frs ra rb 983 false
  | .extsw rs ra rc => xForm 31 rs ra 0 986 rc
  | .lwz rt ra d => dForm 32 rt ra d
  | .lwzu rt ra d => dForm 33 rt ra d
  | .lbz rt ra d => dForm 34 rt ra d
  | .lbzu rt ra d => dForm 35 rt ra d
  | .stw rs ra d => dForm 36 rs ra d
  | .stwu rs ra d => dForm 37 rs ra d
  | .stb rs ra d => dForm 38 rs ra d
  | .stbu rs ra d => dForm 39 rs ra d
  | .lhz rt ra d => dForm 40 rt ra d
  | .lhzu rt ra d => dForm 41 rt ra d
  | .lha rt ra d => dForm 42 rt ra d
  | .lhau rt ra d => dForm 43 rt ra d
  | .sth rs ra d => dForm 44 rs ra d
  | .sthu rs ra d => dForm 45 rs ra d
  | .lmw rt ra d => dForm 46 rt ra d
  | .stmw rs ra d => dForm 47 rs ra d
  | .lfs frt ra d => dForm 48 frt ra d
  | .lfsu frt ra d => dForm 49 frt ra d
  | .lfd frt ra d => dForm 50 frt ra d
  | .lfdu frt ra d => dForm 51 frt ra d
  | .stfs frs ra d => dForm 52 frs ra d
  | .stfsu frs ra d => dForm 53 frs ra d
  | .stfd frs ra d => dForm 54 frs ra d
  | .stfdu frs ra d => dForm 55 frs ra d
  | .ld rt ra ds => dsForm 58 rt ra ds 0
  | .ldu rt ra ds => dsForm 58 rt ra ds 1
  | .lwa rt ra ds => dsForm 58 rt ra ds 2
  | .fdivs frt fra frb rc => aForm 59 frt fra frb 0 18 rc
  | .fsubs frt fra frb rc => aForm 59 frt fra frb 0 20 rc
  | .fadds frt fra frb rc => aForm 59 frt fra frb 0 21 rc
  | .fsqrts frt frb rc => aForm 59 frt 0 frb 0 22 rc
  | .fres frt frb rc => aForm 59 frt 0 frb 0 24 rc
  | .fmuls frt fra frc rc => aForm 59 frt fra 0 frc 25 rc
  | .frsqrtes frt frb rc => aForm 59 frt 0 frb 0 26 rc
  | .fmsubs frt fra frb frc rc => aForm 59 frt fra frb frc 28 rc
  | .fmadds frt fra frb frc rc => aForm 59 frt fra frb frc 29 rc
  | .fnmsubs frt fra frb frc rc => aForm 59 frt fra frb frc 30 rc
  | .fnmadds frt fra frb frc rc => aForm 59 frt fra frb frc 31 rc
  | .std rs ra ds => dsForm 62 rs ra ds 0
  | .stdu rs ra ds => dsForm 62 rs ra ds 1
  | .fcmpu bf fra frb => xForm 63 (bfSlot bf) fra frb 0 false
  | .frsp frt frb rc => xForm 63 frt 0 frb 12 rc
  | .fctiw frt frb rc => xForm 63 frt 0 frb 14 rc
  | .fctiwz frt frb rc => xForm 63 frt 0 frb 15 rc
  | .fdiv frt fra frb rc => aForm 63 frt fra frb 0 18 rc
  | .fsub frt fra frb rc => aForm 63 frt fra frb 0 20 rc
  | .fadd frt fra frb rc => aForm 63 frt fra frb 0 21 rc
  | .fsqrt frt frb rc => aForm 63 frt 0 frb 0 22 rc
  | .fsel frt fra frb frc rc => aForm 63 frt fra frb frc 23 rc
  | .fre frt frb rc => aForm 63 frt 0 frb 0 24 rc
  | .fmul frt fra frc rc => aForm 63 frt fra 0 frc 25 rc
  | .frsqrte frt frb rc => aForm 63 frt 0 frb 0 26 rc
  | .fmsub frt fra frb frc rc => aForm 63 frt fra frb frc 28 rc
  | .fmadd frt fra frb frc rc => aForm 63 frt fra frb frc 29 rc
  | .fnmsub frt fra frb frc rc => aForm 63 frt fra frb frc 30 rc
  | .fnmadd frt fra frb frc rc => aForm 63 frt fra frb frc 31 rc
  | .fcmpo bf fra frb => xForm 63 (bfSlot bf) fra frb 32 false
  | .mtfsb1 bt rc => xForm 63 bt 0 0 38 rc
  | .fneg frt frb rc => xForm 63 frt 0 frb 40 rc
  | .mcrfs bf bfa => xForm 63 (bfSlot bf) (bfSlot bfa) 0 64 false
  | .mtfsb0 bt rc => xForm 63 bt 0 0 70 rc
  | .fmr frt frb rc => xForm 63 frt 0 frb 72 rc
  | .mtfsfi bf u rc => xForm 63 (bfSlot bf) 0 (uSlot u) 134 rc
  | .fnabs frt frb rc => xForm 63 frt 0 frb 136 rc
  | .fabs frt frb rc => xForm 63 frt 0 frb 264 rc
  | .mffs frt rc => xForm 63 frt 0 0 583 rc
  | .mtfsf flm frb rc => xflForm 63 flm frb 711 rc
  | .fctid frt frb rc => xForm 63 frt 0 frb 814 rc
  | .fctidz frt frb rc => xForm 63 frt 0 frb 815 rc
  | .fcfid frt frb rc => xForm 63 frt 0 frb 846 rc

end Sys2Proof
end

