-- ==== Sys2Proof/Config.lean ====
section
/-!
DEFINITION. What the spec leaves without a value: the values it calls undefined.  (What it leaves to the
implementation or the environment, spec/00_scope.md R10, are arguments of a run and stand in State's `env`.)
-/
namespace Sys2Proof.Config

/-- The `k`-th draw of a run (spec/00_scope.md R27, 92_eei_decisions.md D21): a value under no law.  Nothing in
Lean can evaluate it, so every proof holds whatever it is. -/
opaque freeValue : Nat → DWord

end Sys2Proof.Config
end

