-- ==== Sys2Proof/Machine/State.lean ====
section
/-!
DEFINITION. The state of the machine as plain data: the registers of spec/10_state.md R40, storage, the
environment parameters of spec/00_scope.md R10, and the bookkeeping the spec asks a model to keep.
-/
namespace Sys2Proof.Machine

/-- The kind of a storage access (spec/20_memory.md R96). -/
inductive AccessKind where
  | load | store | fetch
deriving DecidableEq, Repr

/-- The event with which a run ends, with its record (spec/60_exceptions.md R710, R731).  Every address is
truncated in 32-bit mode and untouched by the Little-Endian modification. -/
inductive Event where
  /-- The fetch of the word at `addr` = pc met unavailable storage (R713). -/
  | instructionStorage (addr : DWord)
  /-- An illegal word, an invalid form, or an instruction that is not provided (R715). -/
  | illegalInstruction (pc : DWord) (insn : Word)
  /-- A data access at `addr` met unavailable storage (R714). -/
  | dataStorage (pc : DWord) (insn : Word) (addr : DWord) (kind : AccessKind)
  /-- A data access at `addr` whose alignment is invalid for the instruction (R716). -/
  | alignment (pc : DWord) (insn : Word) (addr : DWord)
  /-- System Call, with its level (R717). -/
  | systemCall (pc : DWord) (insn : Word) (lev : BitVec 1)
  /-- A Trap instruction that traps (R718). -/
  | trap (pc : DWord) (insn : Word)
  /-- A floating-point instruction caused an enabled exception (R719). -/
  | floatingPointEnabled (pc : DWord) (insn : Word)
deriving DecidableEq, Repr

/-- A range of `size` bytes from `base` (wrapping) in which some kinds of access are not AVAILABLE
(spec/20_memory.md R96, 92_eei_decisions.md D5). -/
structure Denied where
  base  : DWord
  size  : Nat
  load  : Bool
  store : Bool
  fetch : Bool
deriving DecidableEq, Repr

/-- A set of (address, instruction word) pairs: those whose masked bits match (spec/20_memory.md R100). -/
structure AlignPattern where
  addrMask  : DWord
  addrMatch : DWord
  insnMask  : Word
  insnMatch : Word
deriving DecidableEq, Repr

/-- ALIGN_FAULT on the rows of spec/20_memory.md R100 that are parameters: the accesses that fault. -/
structure AlignPolicy where
  /-- Unaligned single-register accesses in Big-Endian mode. -/
  bigEndian    : List AlignPattern
  /-- Unaligned single-register accesses in Little-Endian mode. -/
  littleEndian : List AlignPattern
  /-- lmw and stmw not word-aligned in Big-Endian mode. -/
  multiple     : List AlignPattern
deriving DecidableEq, Repr

/-- The pattern every access matches. -/
def AlignPattern.every : AlignPattern := ⟨0, 0, 0, 0⟩

/-- The parameters of spec/00_scope.md R10, constant over a run: no Book I instruction changes them. -/
structure Env where
  /-- MODE64 (R3). -/
  mode64            : Bool
  /-- LE, the byte order in effect (20_memory.md R104). -/
  le                : Bool
  /-- FE0 and FE1, the floating-point exception mode (47_fp_model.md R533). -/
  fe0               : Bool
  fe1               : Bool
  hasMtocrfMfocrf   : Bool
  hasFpGeneral      : Bool
  hasFpGraphics     : Bool
  hasLittleEndian   : Bool
  hasMcrxr          : Bool
  hasNiMode         : Bool
  /-- Where AVAILABLE is false (20_memory.md R96). -/
  denied            : List Denied
  /-- ALIGN_FAULT (20_memory.md R100). -/
  align             : AlignPolicy
deriving DecidableEq, Repr

/-- Storage (spec/20_memory.md R90): the bytes that differ from what an unlisted address reads as, by
strictly rising address. -/
abbrev Memory := List Host.Cell

/-- The state of the machine. -/
structure State where
  /-- GPR 0 to GPR 31 (10_state.md R41). -/
  gpr    : Vector DWord 32
  /-- FPR 0 to FPR 31 (10_state.md R60). -/
  fpr    : Vector DWord 32
  /-- Condition Register (10_state.md R44). -/
  cr     : Word
  /-- Link Register (10_state.md R51). -/
  lr     : DWord
  /-- Count Register (10_state.md R52). -/
  ctr    : DWord
  /-- Fixed-Point Exception Register (10_state.md R53). -/
  xer    : DWord
  /-- Floating-Point Status and Control Register (10_state.md R61). -/
  fpscr  : Word
  /-- The current instruction address (10_state.md R42). -/
  pc     : DWord
  /-- The word of the instruction being executed, as the event records name it (60_exceptions.md R731). -/
  insn   : Word
  /-- SingleProduced, one ghost bit per FPR (10_state.md R77, 48_fp_load_store_move.md R608). -/
  single : Vector Bool 32
  /-- Storage from the storage subsystem's point of view (20_memory.md R90, R105). -/
  mem    : Memory
  /-- The byte addresses written since the start of the run, rising (20_memory.md R121). -/
  stored : List Nat
  /-- The event that ended the run, if one has (60_exceptions.md R712, R731). -/
  event  : Option Event
  /-- The model's own: how many undefined values have been drawn (00_scope.md R27). -/
  undef  : Nat
  /-- The model's own: a step has been taken, so that this is no longer the initial state of a run, on which
  70_reset_and_hazards.md R771 puts conditions (log entry 23). -/
  begun  : Bool
  /-- The parameters of the run (00_scope.md R10). -/
  env    : Env
deriving DecidableEq, Repr

/-- Why the machine has no next state. -/
inductive Fault where
  /-- Raised by `step` when an event has ended the run: what follows is in no source of the spec
  (00_scope.md R36, 60_exceptions.md R712).  Safe: the model stops where the hardware goes on. -/
  | runEnded
deriving DecidableEq, Repr

/-- Why the model gives no meaning. -/
inductive Refusal where
  /-- An arm of `exec` that has no meaning yet.  Safe. -/
  | notModelled (mnemonic : String)
  /-- Raised by `step` on a word of Book II or III (30_encoding.md R175, 92_eei_decisions.md D3).  Safe. -/
  | otherBook (mnemonic : String)
  /-- Raised by `step` on a fetch from a byte the run has stored to (20_memory.md R121,
  92_eei_decisions.md D17).  Safe. -/
  | modifiedCode
  /-- Raised by the computational floating-point instructions in non-IEEE mode, whose results are in no
  source (10_state.md R71, 92_eei_decisions.md D15).  Safe. -/
  | nonIeeeMode
  /-- Raised by `step` on a state that breaks a condition of 70_reset_and_hazards.md R771.  Safe. -/
  | illFormedState
deriving DecidableEq, Repr

/-- The outcome of one instruction. -/
abbrev Res := Host.Outcome State Fault Refusal

/-- The parameters after reset.  LE = 0 is the spec's ("Big-Endian mode is in effect", 10_state.md R85), HAS_MCRXR
and HAS_NI_MODE are the defaults of 00_scope.md R10, the alignment policy is the default of 20_memory.md R100.
DESIGN CHOICE, unsafe: the others (log entries 3, 4). -/
def Env.reset : Env where
  mode64 := true
  le := false
  fe0 := false
  fe1 := false
  hasMtocrfMfocrf := true
  hasFpGeneral := true
  hasFpGraphics := true
  hasLittleEndian := true
  hasMcrxr := false
  hasNiMode := false
  denied := []
  align := { bigEndian := [], littleEndian := [AlignPattern.every], multiple := [AlignPattern.every] }

/-- The machine right after reset (70_reset_and_hazards.md R770, 10_state.md R85).  DESIGN CHOICE, unsafe: the spec
gives no register a value; every register is 0 (log entry 1). -/
def State.reset : State where
  gpr := Vector.replicate 32 0
  fpr := Vector.replicate 32 0
  cr := 0
  lr := 0
  ctr := 0
  xer := 0
  fpscr := 0
  pc := 0
  insn := 0
  single := Vector.replicate 32 false
  mem := []
  stored := []
  event := none
  undef := 0
  begun := false
  env := Env.reset

end Sys2Proof.Machine
end

