-- ==== Sys2Proof/Machine/Ops.lean ====
section
/-!
DEFINITION. The named operations: registers, undefined values, instruction addresses, taking an exception,
storage.  Every read and write of a register or of storage goes through these.
-/
namespace Sys2Proof.Machine

/-! ## Registers -/

/-- `GPR[r]` (spec/00_scope.md R19). -/
def State.gprOf (s : State) (r : RegNum) : DWord := s.gpr[r.toNat]'r.isLt

/-- `GPR[r] <- v`: all 64 bits in both modes; no GPR is hardwired (10_state.md R41). -/
def State.setGpr (s : State) (r : RegNum) (v : DWord) : State :=
  { s with gpr := s.gpr.set r.toNat v r.isLt }

/-- `RA0`: the source's (RA|0) (00_scope.md R19). -/
def State.ra0 (s : State) (ra : RegNum) : DWord := if ra = 0 then 0 else s.gprOf ra

/-- `FPR[r]` (10_state.md R60). -/
def State.fprOf (s : State) (r : RegNum) : DWord := s.fpr[r.toNat]'r.isLt

/-- `SingleProduced[r]` (48_fp_load_store_move.md R608). -/
def State.singleOf (s : State) (r : RegNum) : Bool := s.single[r.toNat]'r.isLt

/-- `FPR[r] <- v` with the ghost bit the writing instruction leaves (48_fp_load_store_move.md R608). -/
def State.setFpr (s : State) (r : RegNum) (v : DWord) (single : Bool) : State :=
  { s with fpr := s.fpr.set r.toNat v r.isLt, single := s.single.set r.toNat single r.isLt }

/-- CR. -/
def State.setCr (s : State) (v : Word) : State := { s with cr := v }
/-- LR. -/
def State.setLr (s : State) (v : DWord) : State := { s with lr := v }
/-- CTR. -/
def State.setCtr (s : State) (v : DWord) : State := { s with ctr := v }
/-- XER, all 64 bits. -/
def State.setXer (s : State) (v : DWord) : State := { s with xer := v }
/-- FPSCR, all 32 bits as given. -/
def State.setFpscr (s : State) (v : Word) : State := { s with fpscr := v }
/-- pc. -/
def State.setPc (s : State) (v : DWord) : State := { s with pc := v }
/-- The word being executed. -/
def State.setInsn (s : State) (v : Word) : State := { s with insn := v }

/-! ## Undefined values (00_scope.md R27, 92_eei_decisions.md D21)

DESIGN CHOICE, unsafe (log entry 28): an undefined value that goes into a register or into storage is drawn once, when it
is written, and the draw is stored; R27 lets two reads of the same undefined contents differ, here they agree. -/

/-- `UNDEF(n)`, n at most 64: the next draw. -/
def State.draw (s : State) (n : Nat) : BitVec n := (Config.freeValue s.undef).setWidth n

/-- The state after a draw. -/
def State.drawn (s : State) : State := { s with undef := s.undef + 1 }

/-! ## Instruction addresses -/

/-- `Trunc(ea)`: in 32-bit mode the high-order 32 bits are 0 (20_memory.md R95). -/
def State.trunc (s : State) (ea : DWord) : DWord :=
  if s.env.mode64 then ea else ea &&& 0xFFFFFFFF

/-- `iea(a)`: an instruction address, low two bits 0, truncated in 32-bit mode (10_state.md R43). -/
def State.iea (s : State) (a : DWord) : DWord := s.trunc a &&& ~~~(3 : DWord)

/-- `pc <- iea(pc + 4)` (10_state.md R43). -/
def State.advance (s : State) : State := s.setPc (s.iea (s.pc + 4))

/-- An instruction that does not branch completes: `pc` advances (10_state.md R43). -/
def finish (s : State) : Res := .next s.advance

/-! ## Taking an exception

Book I gives no handler address, no saved register and no return (60_exceptions.md R712, R731, R732): the machine
records the event, changes nothing else, and the run has ended.  The return instructions (rfid, hrfid) are words of
Book III (R732). -/

/-- `raise`: the machine takes the exception `e`; `pc` stays at the raising instruction (00_scope.md R21,
60_exceptions.md R711, R731). -/
def raise (e : Event) (s : State) : Res := .next { s with event := some e }

/-- `raise IllegalInstruction` (60_exceptions.md R715). -/
def raiseIllegal (s : State) : Res := raise (.illegalInstruction s.pc s.insn) s

/-- `raise SystemCall(lev)` (60_exceptions.md R717). -/
def raiseSystemCall (lev : BitVec 1) (s : State) : Res := raise (.systemCall s.pc s.insn lev) s

/-- `raise Trap()` (60_exceptions.md R718). -/
def raiseTrap (s : State) : Res := raise (.trap s.pc s.insn) s

/-- `raise Alignment(a)` (60_exceptions.md R716). -/
def raiseAlignment (a : DWord) (s : State) : Res := raise (.alignment s.pc s.insn a) s

/-- `raise DataStorage(a, kind)` (60_exceptions.md R714). -/
def raiseDataStorage (a : DWord) (kind : AccessKind) (s : State) : Res :=
  raise (.dataStorage s.pc s.insn a kind) s

/-- `raise FloatingPointEnabled()` on a state whose instruction has completed, `cia` being the address of that
instruction (60_exceptions.md R719). -/
def raiseFloatingPointEnabled (cia : DWord) (s : State) : Res :=
  raise (.floatingPointEnabled cia s.insn) s

/-! ## Storage -/

/-- What a byte of storage that nothing has written reads as.  DESIGN CHOICE, unsafe: the spec gives the contents
of storage no value (10_state.md R85; log entry 2). -/
def Memory.unlisted : Byte := 0

/-- The byte at an address. -/
def Memory.read : Memory → Nat → Byte
  | [], _ => Memory.unlisted
  | (b, v) :: rest, a => if b = a then v else Memory.read rest a

/-- Storage with the byte at `a` set to `v`, the canonical form kept. -/
def Memory.write : Memory → Nat → Byte → Memory
  | [], a, v => if v = Memory.unlisted then [] else [(a, v)]
  | (b, u) :: rest, a, v =>
    if a < b then
      if v = Memory.unlisted then (b, u) :: rest else (a, v) :: (b, u) :: rest
    else if a = b then
      if v = Memory.unlisted then rest else (a, v) :: rest
    else (b, u) :: Memory.write rest a v

/-- The canonical form from address `lo` on: strictly rising addresses below 2^64, no entry equal to what an
unlisted address reads as. -/
def Memory.wfFrom (lo : Nat) : Memory → Bool
  | [] => true
  | (a, v) :: rest =>
    decide (lo ≤ a) && decide (a < 2 ^ 64) && v != Memory.unlisted && Memory.wfFrom (a + 1) rest

/-- The canonical form of storage. -/
def Memory.wf (m : Memory) : Bool := Memory.wfFrom 0 m

/-- A rising list of addresses with `a` added. -/
def addrInsert : List Nat → Nat → List Nat
  | [], a => [a]
  | b :: rest, a => if a < b then a :: b :: rest else if a = b then b :: rest else b :: addrInsert rest a

/-- The addresses rise strictly from `lo` on and lie below 2^64. -/
def addrsWfFrom (lo : Nat) : List Nat → Bool
  | [] => true
  | a :: rest => decide (lo ≤ a) && decide (a < 2 ^ 64) && addrsWfFrom (a + 1) rest

/-- The canonical form of the set of stored-to addresses. -/
def addrsWf (l : List Nat) : Bool := addrsWfFrom 0 l

/-- Where the storage subsystem holds the byte at effective address `ea`: truncated (R95), and in Little-Endian
mode with the low three bits complemented (20_memory.md R105 to R107: `V[x] = S[x ^ 0b111]`). -/
def State.byteAddr (s : State) (ea : DWord) : Nat :=
  (if s.env.le then s.trunc ea ^^^ 7 else s.trunc ea).toNat

/-- The byte at effective address `ea`, as the program sees storage. -/
def State.byteAt (s : State) (ea : DWord) : Byte := s.mem.read (s.byteAddr ea)

/-- The byte at effective address `ea` set to `v`, and noted as stored to (20_memory.md R121). -/
def State.storeByte (s : State) (ea : DWord) (v : Byte) : State :=
  { s with mem := s.mem.write (s.byteAddr ea) v, stored := addrInsert s.stored (s.byteAddr ea) }

/-- The `n` bytes from `ea` up, each address one more than the last (20_memory.md R94). -/
def State.loadBytes (s : State) (ea : DWord) : Nat → List Byte
  | 0 => []
  | n + 1 => s.byteAt ea :: s.loadBytes (ea + 1) n

/-- The bytes of the list stored from `ea` up (20_memory.md R94). -/
def State.storeBytes (s : State) (ea : DWord) : List Byte → State
  | [] => s
  | b :: rest => (s.storeByte ea b).storeBytes (ea + 1) rest

/-- The value of bytes, the first most significant. -/
def ofBytes : List Byte → DWord
  | bs => bs.foldl (fun acc b => (acc <<< 8) ||| zext64 b) 0

/-- The low-order `n` bytes of `v`, least significant first. -/
def toBytesLow : Nat → DWord → List Byte
  | 0, _ => []
  | n + 1, v => v.setWidth 8 :: toBytesLow n (v >>> 8)

/-- The bytes of an operand in the order of the program's addresses: most significant first in Big-Endian mode,
least significant first in Little-Endian mode (20_memory.md R92, R106). -/
def State.operandBytes (s : State) (n : Nat) (v : DWord) : List Byte :=
  if s.env.le then toBytesLow n v else (toBytesLow n v).reverse

/-- `MemRead(ea, n)` past its checks, zero-extended to 64 bits (20_memory.md R92, R106, R107). -/
def State.memRead (s : State) (ea : DWord) (n : Nat) : DWord :=
  ofBytes (if s.env.le then (s.loadBytes ea n).reverse else s.loadBytes ea n)

/-- `MemWrite(ea, n, v)` past its checks: the low-order `n` bytes of `v` (20_memory.md R92, R106, R107). -/
def State.memWrite (s : State) (ea : DWord) (n : Nat) (v : DWord) : State :=
  s.storeBytes ea (s.operandBytes n v)

/-- The access kinds denied in a range. -/
def Denied.denies (d : Denied) : AccessKind → Bool
  | .load => d.load
  | .store => d.store
  | .fetch => d.fetch

/-- The byte at `a` may be accessed. -/
def State.byteAvailable (s : State) (kind : AccessKind) (a : DWord) : Bool :=
  s.env.denied.all fun d => !(d.denies kind && decide ((a - d.base).toNat < d.size))

/-- `AVAILABLE(Trunc(ea), n, kind)`, each byte's address truncated (20_memory.md R94 to R96). -/
def State.available (s : State) (kind : AccessKind) (ea : DWord) : Nat → Bool
  | 0 => true
  | n + 1 => s.byteAvailable kind (s.trunc ea) && s.available kind (ea + 1) n

/-- The access is in the pattern's set. -/
def AlignPattern.holds (p : AlignPattern) (a : DWord) (insn : Word) : Bool :=
  (a &&& p.addrMask) == p.addrMatch && (insn &&& p.insnMask) == p.insnMatch

/-- `Aligned(a, n)` (20_memory.md R98). -/
def aligned (a : DWord) (n : Nat) : Bool := a.toNat % n == 0

/-- `ALIGN_FAULT(a, n, insn)` for a single-register access (20_memory.md R100). -/
def State.alignFault (s : State) (a : DWord) (n : Nat) : Bool :=
  !aligned a n &&
    (if s.env.le then s.env.align.littleEndian else s.env.align.bigEndian).any (·.holds a s.insn)

/-- `ALIGN_FAULT(a, 4, insn)` for lmw and stmw in Big-Endian mode (20_memory.md R100). -/
def State.alignFaultMultiple (s : State) (a : DWord) : Bool :=
  !aligned a 4 && s.env.align.multiple.any (·.holds a s.insn)

/-- The checks of a single-register access in their order: alignment, then availability (20_memory.md R97);
otherwise `k`. -/
def checkedAccess (kind : AccessKind) (ea : DWord) (n : Nat) (s : State) (k : Unit → Res) : Res :=
  if s.alignFault (s.trunc ea) n then raiseAlignment (s.trunc ea) s
  else if s.available kind ea n then k ()
  else raiseDataStorage (s.trunc ea) kind s

/-- `MemRead(ea, n)` with its checks; `k` is given the value, zero-extended. -/
def loadThen (ea : DWord) (n : Nat) (s : State) (k : DWord → Res) : Res :=
  checkedAccess .load ea n s fun _ => k (s.memRead ea n)

/-- `MemWrite(ea, n, v)` with its checks; `k` is given the state after the store. -/
def storeThen (ea : DWord) (n : Nat) (v : DWord) (s : State) (k : State → Res) : Res :=
  checkedAccess .store ea n s fun _ => k (s.memWrite ea n v)

/-- The first unit of `size` bytes that is not available, of `count` units from `ea` up (42_fx_multiple_string.md
R301, step 4). -/
def State.firstDenied (s : State) (kind : AccessKind) (size : Nat) (ea : DWord) : Nat → Option DWord
  | 0 => none
  | n + 1 =>
    if s.available kind ea size then s.firstDenied kind size (ea + BitVec.ofNat 64 size) n
    else some (s.trunc ea)

/-- Steps 2 to 4 of 42_fx_multiple_string.md R301, then `k`; `words` is true for lmw and stmw (units of 4 bytes,
step 3 applies), false for the string instructions (units of one byte). -/
def checkedMultiple (kind : AccessKind) (words : Bool) (ea : DWord) (count : Nat) (s : State)
    (k : Unit → Res) : Res :=
  if s.env.le then raiseAlignment (s.trunc ea) s
  else if words && s.alignFaultMultiple (s.trunc ea) then raiseAlignment (s.trunc ea) s
  else match s.firstDenied kind (if words then 4 else 1) ea count with
    | some a => raiseDataStorage a kind s
    | none => k ()

/-! ## Fetching and the conditions on a state -/

/-- The word `FetchInsn(pc)` reads, most significant byte first in the storage subsystem (20_memory.md R108). -/
def State.fetchWord (s : State) : Word := lowWord (s.memRead s.pc 4)

/-- Some byte of the word at pc has been stored to (20_memory.md R121). -/
def State.fetchModified (s : State) : Bool :=
  [0, 1, 2, 3].any fun k => s.stored.contains (s.byteAddr (s.pc + k))

/-- FPSCR.VX as a function of the other bits (10_state.md R65). -/
def fpscrVx (f : Word) : Bool := fld f 7 6 != 0 || fld f 21 3 != 0

/-- FPSCR.FEX as a function of the other bits (10_state.md R64). -/
def fpscrFex (f : Word) : Bool :=
  (fpscrVx f && bitAt f 24) || (bitAt f 3 && bitAt f 25) || (bitAt f 4 && bitAt f 26) ||
    (bitAt f 5 && bitAt f 27) || (bitAt f 6 && bitAt f 28)

/-- FEX and VX recomputed, as after every write to the FPSCR (10_state.md R64, R65). -/
def fpscrSummed (f : Word) : Word := setBitAt (setBitAt f 1 (fpscrFex f)) 2 (fpscrVx f)

/-- FE0 or FE1 is 1: not Ignore Exceptions Mode (47_fp_model.md R533). -/
def State.fpTrapsOn (s : State) : Bool := s.env.fe0 || s.env.fe1

/-- The conditions of 70_reset_and_hazards.md R771 on a state from which the machine steps; the last of them, that no
byte has been stored to, is one on the initial state of a run (log entry 23). -/
def State.wellFormed (s : State) : Bool :=
  s.pc == s.iea s.pc && s.fpscr == fpscrSummed s.fpscr && !(bitAt s.fpscr 1 && s.fpTrapsOn) &&
    (!s.env.le || s.env.hasLittleEndian) && (s.begun || s.stored.isEmpty)

/-- The state as one of a run that has begun. -/
def State.inRun (s : State) : State := { s with begun := true }

/-- The bytes of `w` placed, unmarked as stored to, where the fetch at pc reads them: what a loader outside the
machine does (70_reset_and_hazards.md R771; log entry 8). -/
def State.placeBytes (s : State) (ea : DWord) : List Byte → State
  | [] => s
  | b :: rest =>
    State.placeBytes
      { s with mem := s.mem.write (s.byteAddr ea) b, stored := s.stored.filter (· ≠ s.byteAddr ea) }
      (ea + 1) rest

/-- `w` placed where the next fetch reads. -/
def State.placeWord (s : State) (w : Word) : State :=
  s.placeBytes s.pc (s.operandBytes 4 (zext64 w))

end Sys2Proof.Machine
end

