-- ==== Sys2Proof/Machine/Flags.lean ====
section
/-!
DEFINITION. The flag computations: XER SO, OV, CA (spec/10_state.md R54 to R56), CR Field 0 and the compare fields
(R47, R50), CR Field 1 (R49).
-/
namespace Sys2Proof.Machine

/-- XER.SO (10_state.md R53). -/
def State.so (s : State) : Bool := bitAt s.xer 32
/-- XER.OV. -/
def State.ov (s : State) : Bool := bitAt s.xer 33
/-- XER.CA. -/
def State.ca (s : State) : Bool := bitAt s.xer 34
/-- XER.BC, bits 57:63, the byte count of lswx and stswx (10_state.md R57). -/
def State.byteCount (s : State) : Nat := (fld s.xer 57 7).toNat

/-- XER.CA as a number. -/
def State.caBit (s : State) : BitVec 1 := BitVec.ofBool s.ca

/-- `SetOV(ov)`: OV is written and SO is sticky (10_state.md R54). -/
def State.setOv (s : State) (ov : Bool) : State :=
  s.setXer (setBitAt (setBitAt s.xer 33 ov) 32 (s.so || ov))

/-- `SetCA(ca)` (10_state.md R55). -/
def State.setCa (s : State) (ca : Bool) : State := s.setXer (setBitAt s.xer 34 ca)

/-- `Carry(a, b, cin)`: the carry out of bit M of `a + b + cin`, M = 0 in 64-bit mode and 32 in 32-bit mode
(10_state.md R55). -/
def carryOut (mode64 : Bool) (a b : DWord) (cin : BitVec 1) : Bool :=
  if mode64 then decide (2 ^ 64 ≤ a.toNat + b.toNat + cin.toNat)
  else decide (2 ^ 32 ≤ (lowWord a).toNat + (lowWord b).toNat + cin.toNat)

/-- `a + b + cin`, modulo 2^64. -/
def addWithCarry (a b : DWord) (cin : BitVec 1) : DWord := a + b + zext64 cin

/-- `Overflow(a, b, cin)`: the carry out of bit M differs from the carry out of bit M+1 of `a + b + cin`, that is
`a[M] = b[M]` and the sum's bit M differs from it (10_state.md R56). -/
def overflowOut (mode64 : Bool) (a b : DWord) (cin : BitVec 1) : Bool :=
  let m := if mode64 then 0 else 32
  bitAt a m == bitAt b m && bitAt (addWithCarry a b cin) m != bitAt a m

/-- The three bits LT, GT, EQ of a signed comparison of `x` with zero (10_state.md R47). -/
def signCode {w : Nat} (x : BitVec w) : BitVec 3 :=
  if x.toInt < 0 then 0b100 else if 0 < x.toInt then 0b010 else 0b001

/-- The three bits of a comparison of integers (10_state.md R50). -/
def orderCode (a b : Int) : BitVec 3 :=
  if a < b then 0b100 else if b < a then 0b010 else 0b001

/-- CR field `n` (10_state.md R44). -/
def State.crField (s : State) (n : BitVec 3) : BitVec 4 := fld s.cr (4 * n.toNat) 4

/-- CR field `n` written (10_state.md R44). -/
def State.setCrField (s : State) (n : BitVec 3) (v : BitVec 4) : State :=
  s.setCr (setFld s.cr (4 * n.toNat) v)

/-- CR bit `i`. -/
def State.crBit (s : State) (i : BitVec 5) : Bool := bitAt s.cr i.toNat

/-- CR bit `i` written. -/
def State.setCrBit (s : State) (i : BitVec 5) (b : Bool) : State := s.setCr (setBitAt s.cr i.toNat b)

/-- A compare's code with the copy of SO in its last bit, into a CR field (10_state.md R50). -/
def State.setCompare (s : State) (bf : BitVec 3) (code : BitVec 3) : State :=
  s.setCrField bf (code ++ BitVec.ofBool s.so)

/-- `SetCR0(result)`: the whole result in 64-bit mode, its low word in 32-bit mode; SO as it is now
(10_state.md R47). -/
def State.setCr0 (s : State) (result : DWord) : State :=
  s.setCompare 0 (if s.env.mode64 then signCode result else signCode (lowWord result))

/-- CR Field 0 when a portion of the result is undefined: `CR[0:2] <- UNDEF(3)`, `CR[3] <- XER.SO`
(10_state.md R47).  DESIGN CHOICE: the draw is stored, and later reads agree (log entry 28). -/
def State.setCr0Undef (s : State) : State := (s.setCompare 0 (s.draw 3)).drawn

/-- `SetCR0` when Rc = 1. -/
def State.record (s : State) (rc : Bool) (result : DWord) : State :=
  if rc then s.setCr0 result else s

/-- `SetOV` when OE = 1. -/
def State.overflow (s : State) (oe : Bool) (ov : Bool) : State :=
  if oe then s.setOv ov else s

/-- `SetCR1()`: CR[4:7] <- FPSCR[0:3] (10_state.md R49). -/
def State.setCr1 (s : State) : State := s.setCrField 1 (fld s.fpscr 0 4)

/-- A GPR takes a result, CR Field 0 records it when Rc = 1, and the instruction completes. -/
def writeResult (r : RegNum) (v : DWord) (rc : Bool) (s : State) : Res :=
  finish ((s.setGpr r v).record rc v)

end Sys2Proof.Machine
end

