-- ==== Sys2Proof/Machine/Operands.lean ====
section
/-!
DEFINITION. The operand forms: effective addresses (spec/20_memory.md R93, 41_fx_load_store.md R240) and immediates
(30_encoding.md R159).
-/
namespace Sys2Proof.Machine

/-- X-form: `RA0 + GPR[RB]` (R93). -/
def State.eaX (s : State) (ra rb : RegNum) : DWord := s.ra0 ra + s.gprOf rb

/-- D-form: `RA0 + sext_64(D)` (R93). -/
def State.eaD (s : State) (ra : RegNum) (d : BitVec 16) : DWord := s.ra0 ra + sext64 d

/-- The displacement of the DS-form: `sext_64(DS || 0b00)` (R93). -/
def dsDisp (ds : BitVec 14) : DWord := sext64 (ds ++ (0 : BitVec 2))

/-- DS-form: `RA0 + sext_64(DS || 0b00)` (R93). -/
def State.eaDS (s : State) (ra : RegNum) (ds : BitVec 14) : DWord := s.ra0 ra + dsDisp ds

/-- X-form with update: `GPR[RA] + GPR[RB]` (R93). -/
def State.eaXU (s : State) (ra rb : RegNum) : DWord := s.gprOf ra + s.gprOf rb

/-- D-form with update: `GPR[RA] + sext_64(D)` (R93). -/
def State.eaDU (s : State) (ra : RegNum) (d : BitVec 16) : DWord := s.gprOf ra + sext64 d

/-- DS-form with update: `GPR[RA] + sext_64(DS || 0b00)` (R93). -/
def State.eaDSU (s : State) (ra : RegNum) (ds : BitVec 14) : DWord := s.gprOf ra + dsDisp ds

/-- `sext_64(SI || zeros(16))`, the shifted signed immediate of addis (30_encoding.md R159). -/
def siShifted (si : BitVec 16) : DWord := sext64 (si ++ (0 : BitVec 16))

/-- `zeros(48) || UI` (30_encoding.md R159). -/
def uiLow (ui : BitVec 16) : DWord := zext64 ui

/-- `zeros(32) || UI || zeros(16)` (30_encoding.md R159). -/
def uiHigh (ui : BitVec 16) : DWord := zext64 (ui ++ (0 : BitVec 16))

end Sys2Proof.Machine
end

