-- ==== Sys2Proof/Machine/Arith.lean ====
section
/-!
DEFINITION. Fixed-point arithmetic: add, subtract, negate, multiply, divide (spec/43_fx_arith.md).
-/
namespace Sys2Proof.Machine

/-! ## Shared operations -/

/-- `AddLike(a, b, cin, writesCA)` (43_fx_arith.md R331): the sum in full in both modes, CA, then OV and SO, then the
target, then CR Field 0 with the new SO. -/
def addLike (rt : RegNum) (a b : DWord) (cin : BitVec 1) (writesCa oe rc : Bool) (s : State) : Res :=
  let s1 := if writesCa then s.setCa (carryOut s.env.mode64 a b cin) else s
  writeResult rt (addWithCarry a b cin) rc (s1.overflow oe (overflowOut s.env.mode64 a b cin))

/-- The product of two values as signed integers, exact. -/
def signedProduct {w : Nat} (a b : BitVec w) : Int := a.toInt * b.toInt

/-- An integer lies outside the signed range of `w` bits. -/
def outsideSigned (w : Nat) (x : Int) : Bool := decide (x < -(2 ^ (w - 1))) || decide (2 ^ (w - 1) ≤ x)

/-- A multiply-low: OV says whether the exact product fits `w` bits, whatever the mode (R351, R352). -/
def multiplyLow (rt : RegNum) (prod : Int) (w : Nat) (oe rc : Bool) (s : State) : Res :=
  writeResult rt (BitVec.ofInt 64 prod) rc (s.overflow oe (outsideSigned w prod))

/-- CR Field 0 of a word result whose high-order word is undefined: undefined bits in 64-bit mode, a signed
comparison of the word in 32-bit mode (R355, R357, R360, R362). -/
def State.recordWord (s : State) (rc : Bool) (lo : Word) : State :=
  if rc then (if s.env.mode64 then s.setCr0Undef else s.setCr0 (zext64 lo)) else s

/-- `GPR[RT] <- UNDEF(32) || lo`, with the record of such a result (R355, R357, R360, R362).
DESIGN CHOICE: the draw is stored, and later reads of RT[0:31] agree (log entry 28). -/
def writeWordResult (rt : RegNum) (lo : Word) (rc : Bool) (s : State) : Res :=
  finish ((s.setGpr rt (s.draw 32 ++ lo)).drawn.recordWord rc lo)

/-- A divide whose quotient does not exist: `RT <- UNDEF(64)`, OV set when OE = 1, undefined CR0 bits when Rc = 1
(R358 to R362).  DESIGN CHOICE: the draws are stored, and later reads of RT and CR agree (log entry 28). -/
def divideUndefined (rt : RegNum) (oe rc : Bool) (s : State) : Res :=
  let s1 := ((s.setGpr rt (s.draw 64)).drawn).overflow oe true
  finish (if rc then s1.setCr0Undef else s1)

/-- The signed dividend and divisor have no representable quotient: divisor 0, or the most negative number divided
by -1 (R358). -/
def divideBad {w : Nat} (a b : BitVec w) : Bool := b == 0 || (a == BitVec.intMin w && b == -1)

/-- The signed quotient, truncated toward zero (R358). -/
def signedQuotient {w : Nat} (a b : BitVec w) : BitVec w := BitVec.ofInt w (a.toInt.tdiv b.toInt)

/-! ## Add and subtract -/

/-- addi (R334). -/
def execAddi (rt ra : RegNum) (si : BitVec 16) (s : State) : Res :=
  finish (s.setGpr rt (s.ra0 ra + sext64 si))

/-- addis (R335). -/
def execAddis (rt ra : RegNum) (si : BitVec 16) (s : State) : Res :=
  finish (s.setGpr rt (s.ra0 ra + siShifted si))

/-- add (R336). -/
def execAdd (rt ra rb : RegNum) (oe rc : Bool) (s : State) : Res :=
  addLike rt (s.gprOf ra) (s.gprOf rb) 0 false oe rc s

/-- subf: `~(RA) + (RB) + 1` (R337). -/
def execSubf (rt ra rb : RegNum) (oe rc : Bool) (s : State) : Res :=
  addLike rt (~~~s.gprOf ra) (s.gprOf rb) 1 false oe rc s

/-- addic (R338). -/
def execAddic (rt ra : RegNum) (si : BitVec 16) (s : State) : Res :=
  addLike rt (s.gprOf ra) (sext64 si) 0 true false false s

/-- addic. records always (R339). -/
def execAddicRec (rt ra : RegNum) (si : BitVec 16) (s : State) : Res :=
  addLike rt (s.gprOf ra) (sext64 si) 0 true false true s

/-- subfic (R340). -/
def execSubfic (rt ra : RegNum) (si : BitVec 16) (s : State) : Res :=
  addLike rt (~~~s.gprOf ra) (sext64 si) 1 true false false s

/-- addc (R341). -/
def execAddc (rt ra rb : RegNum) (oe rc : Bool) (s : State) : Res :=
  addLike rt (s.gprOf ra) (s.gprOf rb) 0 true oe rc s

/-- subfc (R342). -/
def execSubfc (rt ra rb : RegNum) (oe rc : Bool) (s : State) : Res :=
  addLike rt (~~~s.gprOf ra) (s.gprOf rb) 1 true oe rc s

/-- adde (R343). -/
def execAdde (rt ra rb : RegNum) (oe rc : Bool) (s : State) : Res :=
  addLike rt (s.gprOf ra) (s.gprOf rb) s.caBit true oe rc s

/-- subfe (R344). -/
def execSubfe (rt ra rb : RegNum) (oe rc : Bool) (s : State) : Res :=
  addLike rt (~~~s.gprOf ra) (s.gprOf rb) s.caBit true oe rc s

/-- addme (R345). -/
def execAddme (rt ra : RegNum) (oe rc : Bool) (s : State) : Res :=
  addLike rt (s.gprOf ra) (-1) s.caBit true oe rc s

/-- subfme (R346). -/
def execSubfme (rt ra : RegNum) (oe rc : Bool) (s : State) : Res :=
  addLike rt (~~~s.gprOf ra) (-1) s.caBit true oe rc s

/-- addze (R347). -/
def execAddze (rt ra : RegNum) (oe rc : Bool) (s : State) : Res :=
  addLike rt (s.gprOf ra) 0 s.caBit true oe rc s

/-- subfze (R348). -/
def execSubfze (rt ra : RegNum) (oe rc : Bool) (s : State) : Res :=
  addLike rt (~~~s.gprOf ra) 0 s.caBit true oe rc s

/-- neg (R349). -/
def execNeg (rt ra : RegNum) (oe rc : Bool) (s : State) : Res :=
  addLike rt (~~~s.gprOf ra) 0 1 false oe rc s

/-! ## Multiply -/

/-- mulli (R350). -/
def execMulli (rt ra : RegNum) (si : BitVec 16) (s : State) : Res :=
  finish (s.setGpr rt (BitVec.ofInt 64 (signedProduct (s.gprOf ra) (sext64 si))))

/-- mulld (R351). -/
def execMulld (rt ra rb : RegNum) (oe rc : Bool) (s : State) : Res :=
  multiplyLow rt (signedProduct (s.gprOf ra) (s.gprOf rb)) 64 oe rc s

/-- mullw: the full 64-bit product of the low words (R352). -/
def execMullw (rt ra rb : RegNum) (oe rc : Bool) (s : State) : Res :=
  multiplyLow rt (signedProduct (lowWord (s.gprOf ra)) (lowWord (s.gprOf rb))) 32 oe rc s

/-- mulhd (R354). -/
def execMulhd (rt ra rb : RegNum) (rc : Bool) (s : State) : Res :=
  writeResult rt (BitVec.ofInt 64 (signedProduct (s.gprOf ra) (s.gprOf rb) / 2 ^ 64)) rc s

/-- mulhdu (R356). -/
def execMulhdu (rt ra rb : RegNum) (rc : Bool) (s : State) : Res :=
  writeResult rt (BitVec.ofNat 64 ((s.gprOf ra).toNat * (s.gprOf rb).toNat / 2 ^ 64)) rc s

/-- mulhw (R355). -/
def execMulhw (rt ra rb : RegNum) (rc : Bool) (s : State) : Res :=
  writeWordResult rt
    (BitVec.ofInt 32 (signedProduct (lowWord (s.gprOf ra)) (lowWord (s.gprOf rb)) / 2 ^ 32)) rc s

/-- mulhwu (R357). -/
def execMulhwu (rt ra rb : RegNum) (rc : Bool) (s : State) : Res :=
  writeWordResult rt
    (BitVec.ofNat 32 ((lowWord (s.gprOf ra)).toNat * (lowWord (s.gprOf rb)).toNat / 2 ^ 32)) rc s

/-! ## Divide -/

/-- divd (R359). -/
def execDivd (rt ra rb : RegNum) (oe rc : Bool) (s : State) : Res :=
  if divideBad (s.gprOf ra) (s.gprOf rb) then divideUndefined rt oe rc s
  else writeResult rt (signedQuotient (s.gprOf ra) (s.gprOf rb)) rc (s.overflow oe false)

/-- divw (R360). -/
def execDivw (rt ra rb : RegNum) (oe rc : Bool) (s : State) : Res :=
  if divideBad (lowWord (s.gprOf ra)) (lowWord (s.gprOf rb)) then divideUndefined rt oe rc s
  else writeWordResult rt (signedQuotient (lowWord (s.gprOf ra)) (lowWord (s.gprOf rb))) rc
    (s.overflow oe false)

/-- divdu (R361). -/
def execDivdu (rt ra rb : RegNum) (oe rc : Bool) (s : State) : Res :=
  if s.gprOf rb = 0 then divideUndefined rt oe rc s
  else writeResult rt (s.gprOf ra / s.gprOf rb) rc (s.overflow oe false)

/-- divwu (R362). -/
def execDivwu (rt ra rb : RegNum) (oe rc : Bool) (s : State) : Res :=
  if lowWord (s.gprOf rb) = 0 then divideUndefined rt oe rc s
  else writeWordResult rt (lowWord (s.gprOf ra) / lowWord (s.gprOf rb)) rc (s.overflow oe false)

end Sys2Proof.Machine
end

