-- ==== Sys2Proof/Machine/Forms.lean ====
section
/-!
DEFINITION. The invalid forms of spec/30_encoding.md R166 that the fields of an instruction decide alone.
-/
namespace Sys2Proof.Machine

/-- Register `r` is among the `n` registers RT, RT+1, …, modulo 32 (42_fx_multiple_string.md R300, R311). -/
def inRegRange (rt r : RegNum) (n : Nat) : Bool :=
  (r - rt).toNat < n

/-- The number of registers that `n` bytes occupy: CEIL(n/4) (42_fx_multiple_string.md R311, 90_conflicts.md C12). -/
def regsForBytes (n : Nat) : Nat := (n + 3) / 4

/-- A load with update: "RA = 0 or RA = RT" is invalid (R166, 41_fx_load_store.md R243). -/
def loadUpdateInvalid (rt ra : RegNum) : Bool := ra == 0 || ra == rt

/-- A store or floating-point load or store with update: RA = 0 is invalid (R166). -/
def storeUpdateInvalid (ra : RegNum) : Bool := ra == 0

/-- lmw: RA in the range RT to 31, "including the case in which RA=0", which needs RT = 0
(R166, 42_fx_multiple_string.md R307). -/
def lmwInvalid (rt ra : RegNum) : Bool := decide (rt ≤ ra)

/-- The byte count of lswi and stswi: NB, 0 meaning 32 (42_fx_multiple_string.md R311). -/
def nbBytes (nb : BitVec 5) : Nat := if nb = 0 then 32 else nb.toNat

/-- A load of `n` bytes of string into registers that include RA, RA = 0 counting as in the range
(R166, 42_fx_multiple_string.md R311, R312). -/
def stringRangeInvalid (rt ra : RegNum) (n : Nat) : Bool :=
  inRegRange rt ra (regsForBytes n)

/-- lswx: RT = RA or RT = RB is invalid whatever the byte count (42_fx_multiple_string.md R312). -/
def lswxFormInvalid (rt ra rb : RegNum) : Bool := rt == ra || rt == rb

/-- bcctr with BO[2] = 0, the "decrement and test CTR" option (R166, 40_branch.md R221). -/
def bcctrInvalid (bo : BitVec 5) : Bool := !bitAt bo 2

/-- SPR numbers Book I defines: 1 (XER), 8 (LR), 9 (CTR) (10_state.md R75, 46_fx_sysreg.md R483). -/
def sprDefined (spr : BitVec 10) : Bool := spr == 1 || spr == 8 || spr == 9

end Sys2Proof.Machine
end

