-- ==== Sys2Proof/Machine/Branch.lean ====
section
/-!
DEFINITION. Branch, System Call and Condition Register instructions (spec/40_branch.md).
-/
namespace Sys2Proof.Machine

/-! ## Shared operations -/

/-- `CTR[M:63] != 0` (40_branch.md R205). -/
def State.ctrNonzero (s : State) : Bool :=
  if s.env.mode64 then s.ctr != 0 else lowWord s.ctr != 0

/-- The CTR decrement: on all 64 bits in both modes, when BO[2] = 0 (R205). -/
def State.countDown (s : State) (bo : BitVec 5) : State :=
  if bitAt bo 2 then s else s.setCtr (s.ctr - 1)

/-- `ctr_ok`, on the state after the decrement (R205). -/
def State.ctrOk (s : State) (bo : BitVec 5) : Bool :=
  bitAt bo 2 || (s.ctrNonzero ^^ bitAt bo 3)

/-- `cond_ok` (R206). -/
def State.condOk (s : State) (bo bi : BitVec 5) : Bool :=
  bitAt bo 0 || s.crBit bi == bitAt bo 1

/-- `iea(pc + 4)`: the sequential address and the link value (R203). -/
def State.nextPc (s : State) : DWord := s.iea (s.pc + 4)

/-- `if LK = 1 then LR <- iea(pc + 4)` (R203). -/
def State.link (s : State) (lk : Bool) : State := if lk then s.setLr s.nextPc else s

/-- The link value is taken, then control goes to `target` if the branch is taken, else to the next instruction
(R203). -/
def branchTo (taken : Bool) (target : DWord) (lk : Bool) (s : State) : Res :=
  .next ((s.link lk).setPc (if taken then target else s.nextPc))

/-- The displacement of an I-form branch: `sext_64(LI || 0b00)` (R209). -/
def liDisp (li : BitVec 24) : DWord := sext64 (li ++ (0 : BitVec 2))

/-- The displacement of a B-form branch: `sext_64(BD || 0b00)` (R210). -/
def bdDisp (bd : BitVec 14) : DWord := sext64 (bd ++ (0 : BitVec 2))

/-- Absolute or relative target (R209, R210). -/
def State.branchTarget (s : State) (aa : Bool) (disp : DWord) : DWord :=
  s.iea (if aa then disp else s.pc + disp)

/-- A Condition Register Logical instruction: CR[BT] becomes `f CR[BA] CR[BB]` (R212 to R219). -/
def crLogical (f : Bool → Bool → Bool) (bt ba bb : BitVec 5) (s : State) : Res :=
  finish (s.setCrBit bt (f (s.crBit ba) (s.crBit bb)))

/-! ## Meanings -/

/-- b (40_branch.md R209). -/
def execB (li : BitVec 24) (aa lk : Bool) (s : State) : Res :=
  branchTo true (s.branchTarget aa (liDisp li)) lk s

/-- bc (R210). -/
def execBc (bo bi : BitVec 5) (bd : BitVec 14) (aa lk : Bool) (s : State) : Res :=
  let s1 := s.countDown bo
  branchTo (s1.ctrOk bo && s1.condOk bo bi) (s1.branchTarget aa (bdDisp bd)) lk s1

/-- bclr: the target is the LR value from before the instruction; BH is a hint (R220, R208). -/
def execBclr (bo bi : BitVec 5) (_bh : BitVec 2) (lk : Bool) (s : State) : Res :=
  let s1 := s.countDown bo
  branchTo (s1.ctrOk bo && s1.condOk bo bi) (s1.iea s1.lr) lk s1

/-- bcctr: BO[2] = 0 is an invalid form; BH is a hint (R221, R208). -/
def execBcctr (bo bi : BitVec 5) (_bh : BitVec 2) (lk : Bool) (s : State) : Res :=
  if bcctrInvalid bo then raiseIllegal s
  else branchTo (s.condOk bo bi) (s.iea s.ctr) lk s

/-- sc: the level is LEV's last bit, instruction bit 26; bit 30 = 0 is an invalid form (R211). -/
def execSc (lev : BitVec 7) (bit30 : Bool) (s : State) : Res :=
  if bit30 then raiseSystemCall (fld lev 6 1) s else raiseIllegal s

/-- crand (R212). -/
def execCrand (bt ba bb : BitVec 5) (s : State) : Res := crLogical (fun a b => a && b) bt ba bb s

/-- cror (R213). -/
def execCror (bt ba bb : BitVec 5) (s : State) : Res := crLogical (fun a b => a || b) bt ba bb s

/-- crxor (R214). -/
def execCrxor (bt ba bb : BitVec 5) (s : State) : Res := crLogical (fun a b => a ^^ b) bt ba bb s

/-- crnand (R215). -/
def execCrnand (bt ba bb : BitVec 5) (s : State) : Res := crLogical (fun a b => !(a && b)) bt ba bb s

/-- crnor (R216). -/
def execCrnor (bt ba bb : BitVec 5) (s : State) : Res := crLogical (fun a b => !(a || b)) bt ba bb s

/-- creqv (R217). -/
def execCreqv (bt ba bb : BitVec 5) (s : State) : Res := crLogical (fun a b => !(a ^^ b)) bt ba bb s

/-- crandc (R218). -/
def execCrandc (bt ba bb : BitVec 5) (s : State) : Res := crLogical (fun a b => a && !b) bt ba bb s

/-- crorc (R219). -/
def execCrorc (bt ba bb : BitVec 5) (s : State) : Res := crLogical (fun a b => a || !b) bt ba bb s

/-- mcrf (R222). -/
def execMcrf (bf bfa : BitVec 3) (s : State) : Res := finish (s.setCrField bf (s.crField bfa))

end Sys2Proof.Machine
end

