-- ==== Sys2Proof/Machine/FpFormat.lean ====
section
/-!
DEFINITION. Floating-point data: classes and values of the double format, the conversions DOUBLE and SINGLE, NaN
results (spec/47_fp_model.md R505 to R513, 48_fp_load_store_move.md R581, R590).
-/
namespace Sys2Proof.Machine

/-! ## Fields and classes (R508 to R510) -/

/-- The sign bit. -/
def fpSign (x : DWord) : Bool := bitAt x 0
/-- The biased exponent. -/
def fpExp (x : DWord) : Nat := (fld x 1 11).toNat
/-- The fraction. -/
def fpFrac (x : DWord) : Nat := (fld x 12 52).toNat

/-- A NaN. -/
def isNaN (x : DWord) : Bool := fpExp x == 2047 && fpFrac x != 0
/-- A Signaling NaN: the high-order fraction bit is 0 (R510). -/
def isSNaN (x : DWord) : Bool := isNaN x && !bitAt x 12
/-- A Quiet NaN. -/
def isQNaN (x : DWord) : Bool := isNaN x && bitAt x 12
/-- An infinity. -/
def isInf (x : DWord) : Bool := fpExp x == 2047 && fpFrac x == 0
/-- A zero. -/
def isZero (x : DWord) : Bool := fpExp x == 0 && fpFrac x == 0
/-- A nonzero finite number. -/
def isNumber (x : DWord) : Bool := fpExp x != 2047 && !isZero x

/-- `s || zeros(63)`. -/
def fpZero (s : Bool) : DWord := BitVec.ofBool s ++ (0 : BitVec 63)
/-- `INF(s)`. -/
def fpInf (s : Bool) : DWord := BitVec.ofBool s ++ (0x7FF0000000000000 : BitVec 63)
/-- The pattern with its sign bit inverted. -/
def fpNegated (x : DWord) : DWord := x ^^^ 0x8000000000000000

/-! ## NaN results (R511) -/

/-- The QNaN that a disabled Invalid Operation Exception generates. -/
def qnanGenerated : DWord := 0x7FF8000000000000

/-- `Quiet(x)`: the high-order fraction bit set. -/
def quiet (x : DWord) : DWord := x ||| 0x0008000000000000

/-- `NaNResult`: the first NaN among the operands, which come in the order FRA, FRB, FRC; otherwise the generated
QNaN. -/
def nanResult : List DWord → DWord
  | [] => qnanGenerated
  | x :: rest => if isNaN x then quiet x else nanResult rest

/-! ## Values -/

/-- The exact number `num * 2^exp`. -/
structure Dyadic where
  num : Int
  exp : Int
deriving DecidableEq, Repr

/-- An exact magnitude: `sig * 2^exp`, or, when `sticky`, some number strictly between that and
`(sig + 1) * 2^exp`. -/
structure Magnitude where
  sig    : Nat
  exp    : Int
  sticky : Bool
deriving DecidableEq, Repr

/-- The significand of a finite pattern as an integer (R508). -/
def fpSig (x : DWord) : Nat := if fpExp x = 0 then fpFrac x else 2 ^ 52 + fpFrac x

/-- The weight of the last place of a finite pattern, as a power of 2. -/
def fpWeight (x : DWord) : Int := if fpExp x = 0 then -1074 else (fpExp x : Int) - 1075

/-- `Val(x)` of a finite pattern (R508). -/
def fpVal (x : DWord) : Dyadic :=
  ⟨if fpSign x then -(fpSig x : Int) else fpSig x, fpWeight x⟩

/-- The exact product. -/
def Dyadic.mul (x y : Dyadic) : Dyadic := ⟨x.num * y.num, x.exp + y.exp⟩

/-- The exact sum, over the smaller of the two exponents. -/
def Dyadic.add (x y : Dyadic) : Dyadic :=
  let e := min x.exp y.exp
  ⟨x.num * 2 ^ (x.exp - e).toNat + y.num * 2 ^ (y.exp - e).toNat, e⟩

/-- `x ≤ y`. -/
def Dyadic.le (x y : Dyadic) : Bool :=
  let e := min x.exp y.exp
  decide (x.num * 2 ^ (x.exp - e).toNat ≤ y.num * 2 ^ (y.exp - e).toNat)

/-- `abs(x)`. -/
def Dyadic.magnitude (x : Dyadic) : Magnitude := ⟨x.num.natAbs, x.exp, false⟩

/-- The quotient of the magnitudes of two nonzero finite patterns: more than 70 significant bits and whether
anything is left over. -/
def fpQuotient (a b : DWord) : Magnitude :=
  let n := fpSig a * 2 ^ 128
  ⟨n / fpSig b, fpWeight a - fpWeight b - 128, n % fpSig b != 0⟩

/-- The integer square root, one bit at a time: the greatest `c` below `r + 2^k` with `c * c ≤ n`, where
`r * r ≤ n`. -/
def isqrtBits (n : Nat) : Nat → Nat → Nat
  | 0, r => r
  | k + 1, r => isqrtBits n k (if (r + 2 ^ k) * (r + 2 ^ k) ≤ n then r + 2 ^ k else r)

/-- The square root of a nonzero finite positive pattern: at least 64 significant bits and whether anything is left
over (49_optional.md R676). -/
def fpRoot (b : DWord) : Magnitude :=
  let odd := fpWeight b % 2 != 0
  let n := fpSig b * 2 ^ (if odd then 129 else 128)
  let root := isqrtBits n 92 0
  ⟨root, ((if odd then fpWeight b - 1 else fpWeight b) - 128) / 2, root * root != n⟩

/-- The magnitude of the value of a finite pattern. -/
def fpMagnitude (x : DWord) : Magnitude := ⟨fpSig x, fpWeight x, false⟩

/-! ## Formats -/

/-- A target precision (R507, R547). -/
structure FpFormat where
  /-- Significand bits. -/
  p      : Nat
  emin   : Int
  emax   : Int
  /-- The exponent adjustment of the enabled Overflow and Underflow Exceptions. -/
  adj    : Int
  /-- The largest finite number, in double format. -/
  maxFin : DWord
deriving DecidableEq, Repr

/-- Single precision. -/
def FpFormat.sp : FpFormat := ⟨24, -126, 127, 192, 0x47EFFFFFE0000000⟩
/-- Double precision. -/
def FpFormat.dp : FpFormat := ⟨53, -1022, 1023, 1536, 0x7FEFFFFFFFFFFFFF⟩

/-- `RepSingle(x)`: the pattern is representable in single format (R512). -/
def repSingle (x : DWord) : Bool :=
  isZero x || isInf x || (isNaN x && fpFrac x % 2 ^ 29 == 0) ||
    (decide (897 ≤ fpExp x ∧ fpExp x ≤ 1150) && fpFrac x % 2 ^ 29 == 0) ||
    (decide (874 ≤ fpExp x ∧ fpExp x ≤ 896) && fpFrac x % 2 ^ (29 + 897 - fpExp x) == 0)

/-- `n * 2^d`, d of either sign; bits below the units are dropped. -/
def scale (n : Nat) (d : Int) : Nat :=
  if 0 ≤ d then n * 2 ^ d.toNat else n / 2 ^ (-d).toNat

/-- `PackD(s, n * 2^q)`: the double-format pattern of a representable number (R556). -/
def packD (s : Bool) (n : Nat) (q : Int) : DWord :=
  if n = 0 then fpZero s
  else
    let e := (n.log2 : Int) + q
    if -1022 ≤ e then
      BitVec.ofBool s ++ BitVec.ofNat 11 (e + 1023).toNat ++ BitVec.ofNat 52 (scale n (52 - n.log2))
    else BitVec.ofBool s ++ (0 : BitVec 11) ++ BitVec.ofNat 52 (scale n (q + 1074))

/-- The least biased exponent of a number at least `2^Emin`. -/
def FpFormat.minExp (fmt : FpFormat) : Nat := (fmt.emin + 1023).toNat

/-- `Class(prec, x)`: the FPRF code of a result (R513, 10_state.md R69). -/
def fpClass (fmt : FpFormat) (x : DWord) : BitVec 5 :=
  if isNaN x then 0b10001
  else if isInf x then (if fpSign x then 0b01001 else 0b00101)
  else if isZero x then (if fpSign x then 0b10010 else 0b00010)
  else if fpExp x < fmt.minExp then (if fpSign x then 0b11000 else 0b10100)
  else (if fpSign x then 0b01000 else 0b00100)

/-- The FPRF code of a normalized number of sign `s`. -/
def normalClass (s : Bool) : BitVec 5 := if s then 0b01000 else 0b00100

/-- `NegClass`: the code of the negated result (48_fp_instructions.md R631). -/
def negClass (c : BitVec 5) : BitVec 5 :=
  match c.toNat with
  | 0b00100 => 0b01000
  | 0b01000 => 0b00100
  | 0b10100 => 0b11000
  | 0b11000 => 0b10100
  | 0b00010 => 0b10010
  | 0b10010 => 0b00010
  | 0b00101 => 0b01001
  | 0b01001 => 0b00101
  | _ => c

/-! ## Conversions between the formats -/

/-- `DOUBLE(WORD)` (48_fp_load_store_move.md R581). -/
def toDouble (w : Word) : DWord :=
  let e := (fld w 1 8).toNat
  let b := fld w 1 1
  if 0 < e ∧ e < 255 then
    fld w 0 2 ++ ~~~b ++ ~~~b ++ ~~~b ++ fld w 2 30 ++ (0 : BitVec 29)
  else if e = 0 ∧ fld w 9 23 ≠ 0 then packD (bitAt w 0) (fld w 9 23).toNat (-149)
  else fld w 0 2 ++ b ++ b ++ b ++ fld w 2 30 ++ (0 : BitVec 29)

/-- `SINGLE(FRS)`, none where it is undefined (48_fp_load_store_move.md R590). -/
def toSingle (x : DWord) : Option Word :=
  if 896 < fpExp x ∨ fld x 1 63 = 0 then some (fld x 0 2 ++ fld x 5 30)
  else if 874 ≤ fpExp x then
    some (fld x 0 1 ++ (0 : BitVec 8) ++ BitVec.ofNat 23 ((2 ^ 52 + fpFrac x) / 2 ^ (897 - fpExp x + 29)))
  else none

end Sys2Proof.Machine
end

