-- ==== Sys2Proof/Machine/FpRound.lean ====
section
/-!
DEFINITION. Rounding and the floating-point exceptions (spec/47_fp_model.md R520 to R559), as functions of the operands
and of the FPSCR.
-/
namespace Sys2Proof.Machine

/-! ## FPSCR bits (10_state.md R61) -/

/-- The mask of FPSCR bit `i`. -/
def fpBit (i : Nat) : Word := (1 : Word) <<< (31 - i)

/-- OX. -/
def fpOx : Word := fpBit 3
/-- UX. -/
def fpUx : Word := fpBit 4
/-- ZX. -/
def fpZx : Word := fpBit 5
/-- XX. -/
def fpXx : Word := fpBit 6
/-- VXSNAN. -/
def fpVxsnan : Word := fpBit 7
/-- VXISI. -/
def fpVxisi : Word := fpBit 8
/-- VXIDI. -/
def fpVxidi : Word := fpBit 9
/-- VXZDZ. -/
def fpVxzdz : Word := fpBit 10
/-- VXIMZ. -/
def fpVximz : Word := fpBit 11
/-- VXVC. -/
def fpVxvc : Word := fpBit 12
/-- VXSQRT. -/
def fpVxsqrt : Word := fpBit 22
/-- VXCVI. -/
def fpVxcvi : Word := fpBit 23

/-- The exception bits whose change from 0 to 1 sets FX: 3:12 and 21:23 (10_state.md R63). -/
def fpExceptionBits : Word := 0x1FF80700

/-- RN. -/
def fpRn (f : Word) : BitVec 2 := fld f 30 2
/-- VE. -/
def fpVe (f : Word) : Bool := bitAt f 24
/-- OE. -/
def fpOe (f : Word) : Bool := bitAt f 25
/-- UE. -/
def fpUe (f : Word) : Bool := bitAt f 26
/-- ZE. -/
def fpZe (f : Word) : Bool := bitAt f 27
/-- XE. -/
def fpXe (f : Word) : Bool := bitAt f 28

/-- A mask, or nothing. -/
def fpWhen (c : Bool) (mask : Word) : Word := if c then mask else 0

/-- FPRF written. -/
def setFprf (f : Word) (c : BitVec 5) : Word := setFld f 15 c

/-- FR and FI written. -/
def setFrFi (f : Word) (fr fi : Bool) : Word := setBitAt (setBitAt f 13 fr) 14 fi

/-- FR and FI written from a rounding, and FI added to XX (R553, R554). -/
def setRounded (f : Word) (inc inexact : Bool) : Word := setFrFi f inc inexact ||| fpWhen inexact fpXx

/-- What `FPEnd` makes of the FPSCR: FX set if an exception bit went from 0 to 1, then VX and FEX
(R534, 10_state.md R63 to R65). -/
def fpEndStatus (old new : Word) : Word :=
  fpscrSummed (new ||| fpWhen (new &&& ~~~old &&& fpExceptionBits != 0) (fpBit 0))

/-! ## Rounding -/

/-- A rounded magnitude `units * 2^q` with the increment and whether it is inexact (R523). -/
structure Rounded where
  units   : Nat
  inc     : Bool
  inexact : Bool
deriving DecidableEq, Repr

/-- The increment of a truncated magnitude (R523, R526): `odd` is t's last bit, `above` and `tie` compare the remainder
with half a unit, `inexact` says it is not 0. -/
def roundUp (mode : BitVec 2) (s odd above tie inexact : Bool) : Bool :=
  match mode.toNat with
  | 0 => above || (tie && odd)
  | 1 => false
  | 2 => !s && inexact
  | _ => s && inexact

/-- `RoundQ(s, v, q, mode)` (R523). -/
def roundQ (s : Bool) (v : Magnitude) (q : Int) (mode : BitVec 2) : Rounded :=
  let k := (q - v.exp).toNat
  let t := scale v.sig (v.exp - q)
  let low := v.sig % 2 ^ k
  let inexact := low != 0 || v.sticky
  let above := decide (2 ^ k < 2 * low) || (decide (2 ^ k = 2 * low) && v.sticky)
  let tie := decide (2 ^ k = 2 * low) && !v.sticky
  let inc := roundUp mode s (t % 2 == 1) above tie inexact
  ⟨if inc then t + 1 else t, inc, inexact⟩

/-- What a computational instruction does: the FPSCR before FX, VX and FEX are brought up to date, what FRT takes if
anything, and whether an enabled exception occurred. -/
structure FpOutcome where
  fpscr  : Word
  frt    : Option DWord
  caused : Bool
deriving DecidableEq, Repr

/-- `OverflowDefault(prec, s, RN)` (R548). -/
def overflowDefault (fmt : FpFormat) (s : Bool) (mode : BitVec 2) : DWord :=
  if mode = 0 ∨ (mode = 2 ∧ s = false) ∨ (mode = 3 ∧ s = true) then fpInf s
  else BitVec.ofBool s ++ fld fmt.maxFin 1 63

/-- The exponent of a nonzero magnitude: `2^e ≤ v < 2^(e+1)`. -/
def Magnitude.exponent (v : Magnitude) : Int := (v.sig.log2 : Int) + v.exp

/-- Rounded to the precision of `fmt` with an unbounded exponent range; the last place is `2^q`. -/
def lastPlace (fmt : FpFormat) (v : Magnitude) : Int := v.exponent - ((fmt.p : Int) - 1)

/-- A Tiny result with Underflow disabled: denormalized, then rounded (R551, R556). -/
def roundTiny (fmt : FpFormat) (s : Bool) (v : Magnitude) (f : Word) : FpOutcome :=
  let q := fmt.emin - ((fmt.p : Int) - 1)
  let r := roundQ s v q (fpRn f)
  let x := packD s r.units q
  ⟨setFprf (setRounded f r.inc r.inexact ||| fpWhen r.inexact fpUx) (fpClass fmt x), some x,
    r.inexact && fpXe f⟩

/-- A result with its exponent adjusted by `d`: enabled Overflow and enabled Underflow (R547, R550). -/
def roundAdjusted (s : Bool) (r : Rounded) (q d : Int) (mask f : Word) : FpOutcome :=
  ⟨setFprf (setRounded f r.inc r.inexact ||| mask) (normalClass s), some (packD s r.units (q + d)), true⟩

/-- `RoundResult(prec, s, v)`; `u` is the undefined FR of a disabled Overflow (R556).  DESIGN CHOICE: that
draw is stored in the FPSCR (log entry 28). -/
def roundResult (fmt : FpFormat) (s : Bool) (v : Magnitude) (f : Word) (u : Bool) : FpOutcome :=
  let q := lastPlace fmt v
  let r := roundQ s v q (fpRn f)
  if v.exponent < fmt.emin then
    if fpUe f then roundAdjusted s r q fmt.adj fpUx f else roundTiny fmt s v f
  else if fmt.emax < (r.units.log2 : Int) + q then
    if fpOe f then roundAdjusted s r q (-fmt.adj) fpOx f
    else
      let x := overflowDefault fmt s (fpRn f)
      ⟨setFprf (setFrFi f u true ||| fpOx ||| fpXx) (fpClass fmt x), some x, fpXe f⟩
  else
    let x := packD s r.units q
    ⟨setFprf (setRounded f r.inc r.inexact) (fpClass fmt x), some x, r.inexact && fpXe f⟩

/-! ## The common skeleton (R555) -/

/-- What an operation on non-NaN operands gives when it is not invalid. -/
inductive ExactResult where
  /-- An exact infinity or zero. -/
  | exact (x : DWord)
  /-- A Zero Divide with the sign of its infinity. -/
  | zeroDivide (s : Bool)
  /-- A finite nonzero number to be rounded. -/
  | finite (s : Bool) (v : Magnitude)
deriving DecidableEq, Repr

/-- Invalid Operation: the bits `vx` are set; enabled, no result is delivered; disabled, a QNaN (R541, R542). -/
def fpInvalid (vx : Word) (nan : DWord) (f : Word) : FpOutcome :=
  let f1 := setFrFi (f ||| vx) false false
  if fpVe f then ⟨f1, none, true⟩ else ⟨setFprf f1 0b10001, some nan, false⟩

/-- A result delivered without rounding: FR and FI are 0 (R554). -/
def fpExact (fmt : FpFormat) (x : DWord) (f : Word) : FpOutcome :=
  ⟨setFprf (setFrFi f false false) (fpClass fmt x), some x, false⟩

/-- Zero Divide (R544, R545). -/
def fpZeroDivide (fmt : FpFormat) (s : Bool) (f : Word) : FpOutcome :=
  let f1 := setFrFi (f ||| fpZx) false false
  if fpZe f then ⟨f1, none, true⟩ else ⟨setFprf f1 (fpClass fmt (fpInf s)), some (fpInf s), false⟩

/-- `FPCompute`: Invalid Operation, then Quiet NaNs, then the operation's own result (R555). -/
def fpCompute (fmt : FpFormat) (vx : Word) (operands : List DWord) (result : ExactResult) (f : Word) (u : Bool) :
    FpOutcome :=
  if vx ≠ 0 then fpInvalid vx (nanResult operands) f
  else if operands.any isNaN then fpExact fmt (nanResult operands) f
  else match result with
    | .exact x => fpExact fmt x f
    | .zeroDivide s => fpZeroDivide fmt s f
    | .finite s v => roundResult fmt s v f u

/-- VXSNAN if some operand is a Signaling NaN (R540). -/
def vxsnanOf (operands : List DWord) : Word := fpWhen (operands.any isSNaN) fpVxsnan

/-- A nonzero exact number to be rounded, or a zero of sign `s`. -/
def ExactResult.ofDyadic (x : Dyadic) (s : Bool) : ExactResult :=
  if x.num = 0 then .exact (fpZero s) else .finite (decide (x.num < 0)) x.magnitude

/-- The sign of an exact zero sum: of operands of one sign, that sign; otherwise 1 only in Round toward -Infinity
(R514, R557). -/
def zeroSumSign (sx sy : Bool) (f : Word) : Bool := if sx = sy then sx else fpRn f == 3

/-- The sum of two non-NaN operands (R557). -/
def fpSum (x y : DWord) (f : Word) : ExactResult :=
  if isInf x then .exact x
  else if isInf y then .exact y
  else .ofDyadic ((fpVal x).add (fpVal y)) (zeroSumSign (fpSign x) (fpSign y) f)

/-- The product of two non-NaN operands (R558). -/
def fpProduct (x y : DWord) : ExactResult :=
  let s := fpSign x != fpSign y
  if isInf x || isInf y then .exact (fpInf s)
  else .ofDyadic ((fpVal x).mul (fpVal y)) s

/-- The quotient of two non-NaN operands (R559). -/
def fpRatio (x y : DWord) : ExactResult :=
  let s := fpSign x != fpSign y
  if isInf x then .exact (fpInf s)
  else if isInf y then .exact (fpZero s)
  else if isZero y then .zeroDivide s
  else if isZero x then .exact (fpZero s)
  else .finite s (fpQuotient x y)

/-- fadd and its kin: `x + y`, `y` being the addend as it participates and `b` the register's contents
(48_fp_instructions.md R616 to R619). -/
def fpAdd (fmt : FpFormat) (a b y : DWord) (f : Word) (u : Bool) : FpOutcome :=
  fpCompute fmt (vxsnanOf [a, b] ||| fpWhen (isInf a && isInf y && fpSign a != fpSign y) fpVxisi) [a, b]
    (fpSum a y f) f u

/-- Infinity times zero. -/
def isInfTimesZero (a c : DWord) : Bool := (isInf a && isZero c) || (isZero a && isInf c)

/-- fmul, fmuls (R620, R621). -/
def fpMul (fmt : FpFormat) (a c : DWord) (f : Word) (u : Bool) : FpOutcome :=
  fpCompute fmt (vxsnanOf [a, c] ||| fpWhen (isInfTimesZero a c) fpVximz) [a, c] (fpProduct a c) f u

/-- fdiv, fdivs (R622, R623). -/
def fpDiv (fmt : FpFormat) (a b : DWord) (f : Word) (u : Bool) : FpOutcome :=
  fpCompute fmt
    (vxsnanOf [a, b] ||| fpWhen (isInf a && isInf b) fpVxidi ||| fpWhen (isZero a && isZero b) fpVxzdz)
    [a, b] (fpRatio a b) f u

/-- A numeric result negated after rounding (48_fp_instructions.md R630, R631). -/
def FpOutcome.negated (o : FpOutcome) : FpOutcome :=
  { o with frt := o.frt.map fpNegated, fpscr := setFprf o.fpscr (negClass (fld o.fpscr 15 5)) }

/-- The product is a true infinity (R631). -/
def isInfProduct (a c : DWord) : Bool :=
  !isNaN a && !isNaN c && !isInfTimesZero a c && (isInf a || isInf c)

/-- The multiply-add's result on non-NaN operands, before negation; `y` is the addend as it participates (R631). -/
def fpFused (a c y : DWord) (f : Word) : ExactResult :=
  let sp := fpSign a != fpSign c
  if isInfProduct a c then .exact (fpInf sp)
  else if isInf y then .exact (fpInf (fpSign y))
  else .ofDyadic (((fpVal a).mul (fpVal c)).add (fpVal y))
    (if (isZero a || isZero c) && isZero y && sp == fpSign y then sp else fpRn f == 3)

/-- `FPMAdd(prec, sub, neg)` (R631). -/
def fpMAdd (fmt : FpFormat) (sub neg : Bool) (a b c : DWord) (f : Word) (u : Bool) : FpOutcome :=
  let y := if sub then fpNegated b else b
  let sp := fpSign a != fpSign c
  let vx := vxsnanOf [a, b, c] ||| fpWhen (isInfTimesZero a c) fpVximz |||
    fpWhen (isInfProduct a c && isInf b && fpSign y != sp) fpVxisi
  let o := fpCompute fmt vx [a, b, c] (fpFused a c y f) f u
  if neg && vx == 0 && !([a, b, c].any isNaN) then o.negated else o

end Sys2Proof.Machine
end

