-- ==== Sys2Proof/Machine/SysReg.lean ====
section
/-!
DEFINITION. Moves to and from the special registers and the Condition Register (spec/46_fx_sysreg.md,
49_optional.md R670 to R674, R688, R689).
-/
namespace Sys2Proof.Machine

/-! ## Shared operations -/

/-- The reserved bits of XER: 0:31 and 35:56 (10_state.md R53). -/
def xerReserved : DWord := 0xFFFFFFFF1FFFFF80

/-- A register read in which a reserved bit reads 0 if 0 was last written there and `UNDEF(1)` otherwise; `u` holds
the draws (10_state.md R58, 00_scope.md R26). -/
def readReserved {w : Nat} (x reserved u : BitVec w) : BitVec w := x &&& (~~~reserved ||| u)

/-- XER as mfspr reads it (10_state.md R58). -/
def State.readXer (s : State) : DWord := readReserved s.xer xerReserved (s.draw 64)

/-- 1s over the CR fields that FXM selects (46_fx_sysreg.md R484). -/
def fxmMask (fxm : BitVec 8) : Word :=
  rep 0 ++ rep 1 ++ rep 2 ++ rep 3 ++ rep 4 ++ rep 5 ++ rep 6 ++ rep 7
where
  /-- Four copies of FXM's bit `i`. -/
  rep (i : Nat) : BitVec 4 := if bitAt fxm i then 0b1111 else 0

/-- The CR field that FXM names when exactly one of its bits is set (49_optional.md R672). -/
def fxmField (fxm : BitVec 8) : Option (BitVec 3) :=
  match fxm.toNat with
  | 128 => some 0
  | 64 => some 1
  | 32 => some 2
  | 16 => some 3
  | 8 => some 4
  | 4 => some 5
  | 2 => some 6
  | 1 => some 7
  | _ => none

/-! ## Meanings -/

/-- mtspr: XER, LR or CTR by SPR number; any other number raises IllegalInstruction (R481, R483). -/
def execMtspr (rs : RegNum) (spr : BitVec 10) (s : State) : Res :=
  if spr = 1 then finish (s.setXer (s.gprOf rs))
  else if spr = 8 then finish (s.setLr (s.gprOf rs))
  else if spr = 9 then finish (s.setCtr (s.gprOf rs))
  else raiseIllegal s

/-- mfspr: XER (its reserved bits as they read), LR or CTR by SPR number; any other number raises
IllegalInstruction (R482, R483). -/
def execMfspr (rt : RegNum) (spr : BitVec 10) (s : State) : Res :=
  if spr = 1 then finish (s.setGpr rt s.readXer).drawn
  else if spr = 8 then finish (s.setGpr rt s.lr)
  else if spr = 9 then finish (s.setGpr rt s.ctr)
  else raiseIllegal s

/-- mtcrf (R484). -/
def execMtcrf (rs : RegNum) (fxm : BitVec 8) (s : State) : Res :=
  finish (s.setCr ((lowWord (s.gprOf rs) &&& fxmMask fxm) ||| (s.cr &&& ~~~fxmMask fxm)))

/-- mfcr (R486). -/
def execMfcr (rt : RegNum) (s : State) : Res := finish (s.setGpr rt (zext64 s.cr))

/-- mtocrf: CR is undefined unless FXM has exactly one bit set (49_optional.md R672).  DESIGN CHOICE: the draw is stored,
and later reads of CR agree (log entry 28). -/
def execMtocrf (rs : RegNum) (fxm : BitVec 8) (s : State) : Res :=
  if !s.env.hasMtocrfMfocrf then raiseIllegal s
  else match fxmField fxm with
    | some n => finish (s.setCrField n (fld (s.gprOf rs) (32 + 4 * n.toNat) 4))
    | none => finish (s.setCr (s.draw 32)).drawn

/-- mfocrf: every bit of RT but the selected field's is undefined.  PRESUMED: the spec supplies these semantics from
general knowledge (49_optional.md R673, 92_eei_decisions.md D23; log entry 9).  DESIGN CHOICE: the draw is stored in RT (log entry 28). -/
def execMfocrf (rt : RegNum) (fxm : BitVec 8) (s : State) : Res :=
  if !s.env.hasMtocrfMfocrf then raiseIllegal s
  else match fxmField fxm with
    | some n => finish (s.setGpr rt (setFld (s.draw 64) (32 + 4 * n.toNat) (s.crField n))).drawn
    | none => finish (s.setGpr rt (s.draw 64)).drawn

/-- mcrxr: XER[32:35] to a CR field, reserved bit 35 as it reads, then cleared (49_optional.md R689). -/
def execMcrxr (bf : BitVec 3) (s : State) : Res :=
  if !s.env.hasMcrxr then raiseIllegal s
  else finish ((s.setCrField bf (fld s.readXer 32 4)).setXer (setFld s.xer 32 (0 : BitVec 4))).drawn

end Sys2Proof.Machine
end

