-- ==== Sys2Proof/Machine/FpStatus.lean ====
section
/-!
DEFINITION. How a floating-point instruction ends, and the FPSCR instructions (spec/47_fp_model.md R516, R534,
48_fp_instructions.md R655 to R661).
-/
namespace Sys2Proof.Machine

/-! ## Shared operations -/

/-- `FPR[r] <- v` if a result is delivered. -/
def State.setFprIf (s : State) (r : RegNum) (v : Option DWord) (single : Bool) : State :=
  match v with
  | some x => s.setFpr r x single
  | none => s

/-- `SetCR1` when Rc = 1 (10_state.md R49). -/
def State.record1 (s : State) (rc : Bool) : State := if rc then s.setCr1 else s

/-- The end of `FPEnd` (47_fp_model.md R534): `pc` advances, and an enabled exception that the instruction caused
invokes its handler unless exceptions are ignored. -/
def fpComplete (caused : Bool) (s : State) : Res :=
  if caused && s.fpTrapsOn then raiseFloatingPointEnabled s.pc s.advance else finish s

/-- The state a computational instruction leaves before its `pc` advances. -/
def fpApply (frt : RegNum) (single rc : Bool) (o : FpOutcome) (s : State) : State :=
  ((s.setFprIf frt o.frt single).setFpscr (fpEndStatus s.fpscr o.fpscr)).record1 rc

/-- A computational instruction applies its outcome and ends (47_fp_model.md R534). -/
def fpEnd (frt : RegNum) (single rc : Bool) (o : FpOutcome) (s : State) : Res :=
  fpComplete o.caused (fpApply frt single rc o s)

/-- The refusal of the computational instructions in non-IEEE mode (10_state.md R71, 92_eei_decisions.md D15);
otherwise `k`. -/
def fpGuard (s : State) (k : Unit → Res) : Res :=
  if s.env.hasNiMode && bitAt s.fpscr 29 then .refused .nonIeeeMode else k ()

/-- The FPSCR with the bits of `mask` undefined: `u` holds the draws (47_fp_model.md R516). -/
def fpUndefinedStatus (f mask u : Word) : Word := fpscrSummed ((f &&& ~~~mask) ||| (u &&& mask))

/-- The undefined outcome of a single-precision instruction with an operand that is not representable in single
format: FRT, the FPSCR bits the instruction alters and CR1 are undefined, and the drawn FEX says whether an
exception is raised (47_fp_model.md R516, 93_implementation_defined.md U8).  DESIGN CHOICE: the draws are stored (log entries
20, 28). -/
def fpUndefined (frt : RegNum) (rc : Bool) (mask : Word) (s : State) : Res :=
  let s1 := s.drawn
  let u : DWord := s1.draw 64
  let f := fpUndefinedStatus s.fpscr mask (lowWord u)
  let s2 := (s1.drawn.setFpr frt (s.draw 64) true).setFpscr f
  fpComplete (bitAt f 1) (if rc then s2.setCrField 1 (fld u 0 4) else s2)

/-- A computational instruction with the outcome `o`, given the FPSCR and one draw. -/
def fpRun (frt : RegNum) (single rc : Bool) (o : Word → DWord → FpOutcome) (s : State) : Res :=
  fpEnd frt single rc (o s.fpscr (s.draw 64)) s.drawn

/-- A double-precision arithmetic instruction. -/
def fpDouble (frt : RegNum) (rc : Bool) (o : Word → DWord → FpOutcome) (s : State) : Res :=
  fpGuard s fun _ => fpRun frt false rc o s

/-- A single-precision arithmetic instruction; `mask` is its list of FPSCR bits altered. -/
def fpSingle (frt : RegNum) (rc : Bool) (operands : List DWord) (mask : Word) (o : Word → DWord → FpOutcome)
    (s : State) : Res :=
  fpGuard s fun _ =>
    if operands.all repSingle then fpRun frt true rc o s else fpUndefined frt rc mask s

/-- An undefined FR, from a draw. -/
def drawnBit (u : DWord) : Bool := bitAt u 63

/-- The FPSCR bits 1 and 2, FEX and VX, which no instruction writes as data (48_fp_instructions.md R655). -/
def fpWritable : Word := 0x9FFFFFFF

/-- The FPSCR with the bits of `mask` taken from `v`; FEX and VX only follow (48_fp_instructions.md R655). -/
def fpWrite (f mask v : Word) : Word :=
  fpscrSummed ((f &&& ~~~(mask &&& fpWritable)) ||| (v &&& (mask &&& fpWritable)))

/-- A Move To FPSCR instruction ends: FX follows no rule of its own, FEX = 1 counts as an exception caused
(47_fp_model.md R534, 92_eei_decisions.md D9). -/
def fpMoveEnd (rc : Bool) (f : Word) (s : State) : Res :=
  fpComplete (bitAt f 1) ((s.setFpscr f).record1 rc)

/-- The reserved bits of the FPSCR: 20, and 29 without non-IEEE mode (10_state.md R61, R71). -/
def State.fpscrReserved (s : State) : Word := fpBit 20 ||| fpWhen (!s.env.hasNiMode) (fpBit 29)

/-- The FPSCR as an instruction reads it (10_state.md R58). -/
def State.readFpscr (s : State) : Word := readReserved s.fpscr s.fpscrReserved (lowWord (s.draw 64))

/-- 1s over FPSCR field `n`. -/
def fpFieldMask (n : BitVec 3) : Word := (0xF0000000 : Word) >>> (4 * n.toNat)

/-! ## Meanings -/

/-- mffs: the high-order word of FRT is undefined (R656).  DESIGN CHOICE: the draw is stored (log entry 28). -/
def execMffs (frt : RegNum) (rc : Bool) (s : State) : Res :=
  finish ((s.setFpr frt (highWord (s.draw 64) ++ s.readFpscr) false).record1 rc).drawn

/-- mcrfs: a field is copied to a CR field, and the FX and exception bits copied are cleared (R657). -/
def execMcrfs (bf bfa : BitVec 3) (s : State) : Res :=
  let copied := fld s.readFpscr (4 * bfa.toNat) 4
  let cleared := fpFieldMask bfa &&& (fpExceptionBits ||| fpBit 0)
  finish ((s.setCrField bf copied).setFpscr (fpscrSummed (s.fpscr &&& ~~~cleared))).drawn

/-- mtfsfi (R658). -/
def execMtfsfi (bf : BitVec 3) (u : BitVec 4) (rc : Bool) (s : State) : Res :=
  fpMoveEnd rc (fpWrite s.fpscr (fpFieldMask bf) (setFld 0 (4 * bf.toNat) u)) s

/-- mtfsf (R659). -/
def execMtfsf (flm : BitVec 8) (frb : RegNum) (rc : Bool) (s : State) : Res :=
  fpMoveEnd rc (fpWrite s.fpscr (fxmMask flm) (lowWord (s.fprOf frb))) s

/-- mtfsb0 (R660). -/
def execMtfsb0 (bt : BitVec 5) (rc : Bool) (s : State) : Res :=
  fpMoveEnd rc (fpWrite s.fpscr (fpBit bt.toNat) 0) s

/-- mtfsb1: FX follows an exception bit that goes from 0 to 1 (R661). -/
def execMtfsb1 (bt : BitVec 5) (rc : Bool) (s : State) : Res :=
  fpMoveEnd rc (fpEndStatus s.fpscr (fpWrite s.fpscr (fpBit bt.toNat) (fpBit bt.toNat))) s

end Sys2Proof.Machine
end

