-- ==== Sys2Proof/Machine/FpArith.lean ====
section
/-!
DEFINITION. Floating-point arithmetic (spec/48_fp_instructions.md R615 to R639).
-/
namespace Sys2Proof.Machine

/-! ## The FPSCR bits each single-precision instruction alters (the pages' "Special Registers Altered") -/

/-- FPRF FR FI FX OX UX XX VXSNAN. -/
def fpAltered : Word := 0x9B07F000
/-- fadds, fsubs. -/
def fpAlteredAdd : Word := fpAltered ||| fpVxisi
/-- fmuls. -/
def fpAlteredMul : Word := fpAltered ||| fpVximz
/-- fdivs. -/
def fpAlteredDiv : Word := fpAltered ||| fpZx ||| fpVxidi ||| fpVxzdz
/-- The multiply-adds. -/
def fpAlteredFused : Word := fpAltered ||| fpVxisi ||| fpVximz

/-! ## Elementary arithmetic -/

/-- fadd (R616). -/
def execFadd (frt fra frb : RegNum) (rc : Bool) (s : State) : Res :=
  fpDouble frt rc (fun f u => fpAdd .dp (s.fprOf fra) (s.fprOf frb) (s.fprOf frb) f (drawnBit u)) s

/-- fadds (R617). -/
def execFadds (frt fra frb : RegNum) (rc : Bool) (s : State) : Res :=
  fpSingle frt rc [s.fprOf fra, s.fprOf frb] fpAlteredAdd
    (fun f u => fpAdd .sp (s.fprOf fra) (s.fprOf frb) (s.fprOf frb) f (drawnBit u)) s

/-- fsub (R618). -/
def execFsub (frt fra frb : RegNum) (rc : Bool) (s : State) : Res :=
  fpDouble frt rc (fun f u => fpAdd .dp (s.fprOf fra) (s.fprOf frb) (fpNegated (s.fprOf frb)) f (drawnBit u)) s

/-- fsubs (R619). -/
def execFsubs (frt fra frb : RegNum) (rc : Bool) (s : State) : Res :=
  fpSingle frt rc [s.fprOf fra, s.fprOf frb] fpAlteredAdd
    (fun f u => fpAdd .sp (s.fprOf fra) (s.fprOf frb) (fpNegated (s.fprOf frb)) f (drawnBit u)) s

/-- fmul (R620). -/
def execFmul (frt fra frc : RegNum) (rc : Bool) (s : State) : Res :=
  fpDouble frt rc (fun f u => fpMul .dp (s.fprOf fra) (s.fprOf frc) f (drawnBit u)) s

/-- fmuls (R621). -/
def execFmuls (frt fra frc : RegNum) (rc : Bool) (s : State) : Res :=
  fpSingle frt rc [s.fprOf fra, s.fprOf frc] fpAlteredMul
    (fun f u => fpMul .sp (s.fprOf fra) (s.fprOf frc) f (drawnBit u)) s

/-- fdiv (R622). -/
def execFdiv (frt fra frb : RegNum) (rc : Bool) (s : State) : Res :=
  fpDouble frt rc (fun f u => fpDiv .dp (s.fprOf fra) (s.fprOf frb) f (drawnBit u)) s

/-- fdivs (R623). -/
def execFdivs (frt fra frb : RegNum) (rc : Bool) (s : State) : Res :=
  fpSingle frt rc [s.fprOf fra, s.fprOf frb] fpAlteredDiv
    (fun f u => fpDiv .sp (s.fprOf fra) (s.fprOf frb) f (drawnBit u)) s

/-! ## Multiply-add -/

/-- fmadd (R632). -/
def execFmadd (frt fra frb frc : RegNum) (rc : Bool) (s : State) : Res :=
  fpDouble frt rc
    (fun f u => fpMAdd .dp false false (s.fprOf fra) (s.fprOf frb) (s.fprOf frc) f (drawnBit u)) s

/-- fmadds (R633). -/
def execFmadds (frt fra frb frc : RegNum) (rc : Bool) (s : State) : Res :=
  fpSingle frt rc [s.fprOf fra, s.fprOf frb, s.fprOf frc] fpAlteredFused
    (fun f u => fpMAdd .sp false false (s.fprOf fra) (s.fprOf frb) (s.fprOf frc) f (drawnBit u)) s

/-- fmsub (R634). -/
def execFmsub (frt fra frb frc : RegNum) (rc : Bool) (s : State) : Res :=
  fpDouble frt rc
    (fun f u => fpMAdd .dp true false (s.fprOf fra) (s.fprOf frb) (s.fprOf frc) f (drawnBit u)) s

/-- fmsubs (R635). -/
def execFmsubs (frt fra frb frc : RegNum) (rc : Bool) (s : State) : Res :=
  fpSingle frt rc [s.fprOf fra, s.fprOf frb, s.fprOf frc] fpAlteredFused
    (fun f u => fpMAdd .sp true false (s.fprOf fra) (s.fprOf frb) (s.fprOf frc) f (drawnBit u)) s

/-- fnmadd (R636). -/
def execFnmadd (frt fra frb frc : RegNum) (rc : Bool) (s : State) : Res :=
  fpDouble frt rc
    (fun f u => fpMAdd .dp false true (s.fprOf fra) (s.fprOf frb) (s.fprOf frc) f (drawnBit u)) s

/-- fnmadds (R637). -/
def execFnmadds (frt fra frb frc : RegNum) (rc : Bool) (s : State) : Res :=
  fpSingle frt rc [s.fprOf fra, s.fprOf frb, s.fprOf frc] fpAlteredFused
    (fun f u => fpMAdd .sp false true (s.fprOf fra) (s.fprOf frb) (s.fprOf frc) f (drawnBit u)) s

/-- fnmsub (R638). -/
def execFnmsub (frt fra frb frc : RegNum) (rc : Bool) (s : State) : Res :=
  fpDouble frt rc
    (fun f u => fpMAdd .dp true true (s.fprOf fra) (s.fprOf frb) (s.fprOf frc) f (drawnBit u)) s

/-- fnmsubs (R639). -/
def execFnmsubs (frt fra frb frc : RegNum) (rc : Bool) (s : State) : Res :=
  fpSingle frt rc [s.fprOf fra, s.fprOf frb, s.fprOf frc] fpAlteredFused
    (fun f u => fpMAdd .sp true true (s.fprOf fra) (s.fprOf frb) (s.fprOf frc) f (drawnBit u)) s

end Sys2Proof.Machine
end

