-- ==== Sys2Proof/Machine/FpConvert.lean ====
section
/-!
DEFINITION. Floating-point rounding, conversion and comparison (spec/48_fp_instructions.md R640 to R652,
47_fp_appendix_a.md).
-/
namespace Sys2Proof.Machine

/-! ## Shared operations -/

/-- A NaN result of frsp: the low-order 29 bits are 0 (47_fp_model.md R511). -/
def singleNaN (x : DWord) : DWord := quiet x &&& 0xFFFFFFFFE0000000

/-- Round to Single-Precision (R641). -/
def fpRoundSingle (b : DWord) (f : Word) (u : Bool) : FpOutcome :=
  if isSNaN b then fpInvalid fpVxsnan (singleNaN b) f
  else if isNaN b then fpExact .sp (singleNaN b) f
  else if isInf b || isZero b then fpExact .sp b f
  else roundResult .sp (fpSign b) (fpMagnitude b) f u

/-- An integer result in the FPR: a doubleword, or a word below an undefined word (R642, R644).
DESIGN CHOICE: the draws of that word and of FPRF are stored (log entry 28). -/
def fpIntResult (word : Bool) (n : Int) (u : DWord) : DWord :=
  if word then highWord u ++ BitVec.ofInt 32 n else BitVec.ofInt 64 n

/-- The exponent of the target integer's range: `-2^k` to `2^k - 1`. -/
def fpIntBits (word : Bool) : Nat := if word then 31 else 63

/-- An invalid conversion: enabled, nothing is delivered; disabled, FPRF is undefined and the result is the most
positive integer of a positive operand, the most negative of a negative one or a NaN (47_fp_model.md R541, R542). -/
def fpIntInvalid (word : Bool) (b : DWord) (vx f : Word) (u : DWord) : FpOutcome :=
  let f1 := setFrFi (f ||| vx) false false
  let n : Int := if isNaN b || fpSign b then -2 ^ fpIntBits word else 2 ^ fpIntBits word - 1
  if fpVe f then ⟨f1, none, true⟩
  else ⟨setFprf f1 (u.setWidth 5), some (fpIntResult word n u), false⟩

/-- Convert To Integer with rounding mode `mode`; `u` holds the undefined FPRF and word (R642 to R645). -/
def fpToInt (word : Bool) (mode : BitVec 2) (b : DWord) (f : Word) (u : DWord) : FpOutcome :=
  if isSNaN b then fpIntInvalid word b (fpVxsnan ||| fpVxcvi) f u
  else if isNaN b || isInf b then fpIntInvalid word b fpVxcvi f u
  else
    let r := roundQ (fpSign b) (fpMagnitude b) 0 mode
    let n : Int := if fpSign b then -(r.units : Int) else r.units
    if n < -2 ^ fpIntBits word ∨ 2 ^ fpIntBits word ≤ n then fpIntInvalid word b fpVxcvi f u
    else ⟨setFprf (setRounded f r.inc r.inexact) (u.setWidth 5), some (fpIntResult word n u),
      r.inexact && fpXe f⟩

/-- Convert From Integer (R646). -/
def fpFromInt (b : DWord) (f : Word) : FpOutcome :=
  let n := b.toInt
  if n = 0 then fpExact .dp (fpZero false) f
  else
    let s := decide (n < 0)
    let q := (n.natAbs.log2 : Int) - 52
    let r := roundQ s ⟨n.natAbs, 0, false⟩ q (fpRn f)
    ⟨setFprf (setRounded f r.inc r.inexact) (normalClass s), some (packD s r.units q), r.inexact && fpXe f⟩

/-- A number that orders the non-NaN patterns as their values are ordered, both zeros alike (R650). -/
def fpOrder (x : DWord) : Int :=
  if fpSign x then -((fld x 1 63).toNat : Int) else (fld x 1 63).toNat

/-- The code FL FG FE FU of a comparison (R650). -/
def fpCompareCode (a b : DWord) : BitVec 4 :=
  if isNaN a || isNaN b then 0b0001
  else if fpOrder a < fpOrder b then 0b1000
  else if fpOrder b < fpOrder a then 0b0100
  else 0b0010

/-- The Invalid Operation bits of a comparison (R650). -/
def fpCompareVx (ordered : Bool) (a b : DWord) (f : Word) : Word :=
  if isSNaN a || isSNaN b then fpVxsnan ||| fpWhen (ordered && !fpVe f) fpVxvc
  else fpWhen (ordered && (isNaN a || isNaN b)) fpVxvc

/-- `FPCompare(ordered)` (R650). -/
def fpCompare (ordered : Bool) (bf : BitVec 3) (a b : DWord) (s : State) : Res :=
  fpGuard s fun _ =>
    let c := fpCompareCode a b
    let vx := fpCompareVx ordered a b s.fpscr
    fpComplete (vx != 0 && fpVe s.fpscr)
      ((s.setCrField bf c).setFpscr (fpEndStatus s.fpscr (setFld s.fpscr 16 c ||| vx)))

/-! ## Meanings -/

/-- frsp: any operand, and the result is single-precision (R641). -/
def execFrsp (frt frb : RegNum) (rc : Bool) (s : State) : Res :=
  fpGuard s fun _ => fpRun frt true rc (fun f u => fpRoundSingle (s.fprOf frb) f (drawnBit u)) s

/-- fctid (R642). -/
def execFctid (frt frb : RegNum) (rc : Bool) (s : State) : Res :=
  fpDouble frt rc (fun f u => fpToInt false (fpRn f) (s.fprOf frb) f u) s

/-- fctidz (R643). -/
def execFctidz (frt frb : RegNum) (rc : Bool) (s : State) : Res :=
  fpDouble frt rc (fun f u => fpToInt false 1 (s.fprOf frb) f u) s

/-- fctiw (R644). -/
def execFctiw (frt frb : RegNum) (rc : Bool) (s : State) : Res :=
  fpDouble frt rc (fun f u => fpToInt true (fpRn f) (s.fprOf frb) f u) s

/-- fctiwz (R645). -/
def execFctiwz (frt frb : RegNum) (rc : Bool) (s : State) : Res :=
  fpDouble frt rc (fun f u => fpToInt true 1 (s.fprOf frb) f u) s

/-- fcfid (R646). -/
def execFcfid (frt frb : RegNum) (rc : Bool) (s : State) : Res :=
  fpDouble frt rc (fun f _ => fpFromInt (s.fprOf frb) f) s

/-- fcmpu (R651). -/
def execFcmpu (bf : BitVec 3) (fra frb : RegNum) (s : State) : Res :=
  fpCompare false bf (s.fprOf fra) (s.fprOf frb) s

/-- fcmpo (R652). -/
def execFcmpo (bf : BitVec 3) (fra frb : RegNum) (s : State) : Res :=
  fpCompare true bf (s.fprOf fra) (s.fprOf frb) s

end Sys2Proof.Machine
end

