-- ==== Sys2Proof/Machine/LoadStore.lean ====
section
/-!
DEFINITION. Fixed-point loads and stores, one register (spec/41_fx_load_store.md).
-/
namespace Sys2Proof.Machine

/-! ## Shared operations -/

/-- A loaded halfword, sign-extended (41_fx_load_store.md R254). -/
def signHalf (v : DWord) : DWord := sext64 (v.setWidth 16)

/-- A loaded word, sign-extended (R262). -/
def signWord (v : DWord) : DWord := sext64 (lowWord v)

/-- A load of `n` bytes into RT through `ext`, the identity for the zero-extending loads (R240, R241). -/
def loadInto (rt : RegNum) (ea : DWord) (n : Nat) (ext : DWord → DWord) (s : State) : Res :=
  loadThen ea n s fun v => finish (s.setGpr rt (ext v))

/-- A load with update: RA = 0 or RA = RT is an invalid form; RA takes the full 64-bit EA (R243). -/
def loadUpdate (rt ra : RegNum) (ea : DWord) (n : Nat) (ext : DWord → DWord) (s : State) : Res :=
  if loadUpdateInvalid rt ra then raiseIllegal s
  else loadThen ea n s fun v => finish ((s.setGpr rt (ext v)).setGpr ra ea)

/-- A store of the low-order `n` bytes of a value (R240). -/
def storeFrom (v ea : DWord) (n : Nat) (s : State) : Res := storeThen ea n v s finish

/-- A store with update: RA = 0 is an invalid form; RA takes the full 64-bit EA after the store (R243). -/
def storeUpdate (ra : RegNum) (v ea : DWord) (n : Nat) (s : State) : Res :=
  if storeUpdateInvalid ra then raiseIllegal s
  else storeThen ea n v s fun s1 => finish (s1.setGpr ra ea)

/-! ## Loads -/

/-- lbz (R246). -/
def execLbz (rt ra : RegNum) (d : BitVec 16) (s : State) : Res :=
  loadInto rt (s.eaD ra d) 1 id s

/-- lbzx (R247). -/
def execLbzx (rt ra rb : RegNum) (s : State) : Res :=
  loadInto rt (s.eaX ra rb) 1 id s

/-- lbzu (R248). -/
def execLbzu (rt ra : RegNum) (d : BitVec 16) (s : State) : Res :=
  loadUpdate rt ra (s.eaDU ra d) 1 id s

/-- lbzux (R249). -/
def execLbzux (rt ra rb : RegNum) (s : State) : Res :=
  loadUpdate rt ra (s.eaXU ra rb) 1 id s

/-- lhz (R250). -/
def execLhz (rt ra : RegNum) (d : BitVec 16) (s : State) : Res :=
  loadInto rt (s.eaD ra d) 2 id s

/-- lhzx (R251). -/
def execLhzx (rt ra rb : RegNum) (s : State) : Res :=
  loadInto rt (s.eaX ra rb) 2 id s

/-- lhzu (R252). -/
def execLhzu (rt ra : RegNum) (d : BitVec 16) (s : State) : Res :=
  loadUpdate rt ra (s.eaDU ra d) 2 id s

/-- lhzux (R253). -/
def execLhzux (rt ra rb : RegNum) (s : State) : Res :=
  loadUpdate rt ra (s.eaXU ra rb) 2 id s

/-- lha (R254). -/
def execLha (rt ra : RegNum) (d : BitVec 16) (s : State) : Res :=
  loadInto rt (s.eaD ra d) 2 signHalf s

/-- lhax (R255). -/
def execLhax (rt ra rb : RegNum) (s : State) : Res :=
  loadInto rt (s.eaX ra rb) 2 signHalf s

/-- lhau (R256). -/
def execLhau (rt ra : RegNum) (d : BitVec 16) (s : State) : Res :=
  loadUpdate rt ra (s.eaDU ra d) 2 signHalf s

/-- lhaux (R257). -/
def execLhaux (rt ra rb : RegNum) (s : State) : Res :=
  loadUpdate rt ra (s.eaXU ra rb) 2 signHalf s

/-- lwz (R258). -/
def execLwz (rt ra : RegNum) (d : BitVec 16) (s : State) : Res :=
  loadInto rt (s.eaD ra d) 4 id s

/-- lwzx (R259). -/
def execLwzx (rt ra rb : RegNum) (s : State) : Res :=
  loadInto rt (s.eaX ra rb) 4 id s

/-- lwzu (R260). -/
def execLwzu (rt ra : RegNum) (d : BitVec 16) (s : State) : Res :=
  loadUpdate rt ra (s.eaDU ra d) 4 id s

/-- lwzux (R261). -/
def execLwzux (rt ra rb : RegNum) (s : State) : Res :=
  loadUpdate rt ra (s.eaXU ra rb) 4 id s

/-- lwa (R262). -/
def execLwa (rt ra : RegNum) (ds : BitVec 14) (s : State) : Res :=
  loadInto rt (s.eaDS ra ds) 4 signWord s

/-- lwax (R263). -/
def execLwax (rt ra rb : RegNum) (s : State) : Res :=
  loadInto rt (s.eaX ra rb) 4 signWord s

/-- lwaux (R264). -/
def execLwaux (rt ra rb : RegNum) (s : State) : Res :=
  loadUpdate rt ra (s.eaXU ra rb) 4 signWord s

/-- ld (R265). -/
def execLd (rt ra : RegNum) (ds : BitVec 14) (s : State) : Res :=
  loadInto rt (s.eaDS ra ds) 8 id s

/-- ldx (R266). -/
def execLdx (rt ra rb : RegNum) (s : State) : Res :=
  loadInto rt (s.eaX ra rb) 8 id s

/-- ldu (R267). -/
def execLdu (rt ra : RegNum) (ds : BitVec 14) (s : State) : Res :=
  loadUpdate rt ra (s.eaDSU ra ds) 8 id s

/-- ldux (R268). -/
def execLdux (rt ra rb : RegNum) (s : State) : Res :=
  loadUpdate rt ra (s.eaXU ra rb) 8 id s

/-! ## Stores -/

/-- stb (R269). -/
def execStb (rs ra : RegNum) (d : BitVec 16) (s : State) : Res :=
  storeFrom (s.gprOf rs) (s.eaD ra d) 1 s

/-- stbx (R270). -/
def execStbx (rs ra rb : RegNum) (s : State) : Res :=
  storeFrom (s.gprOf rs) (s.eaX ra rb) 1 s

/-- stbu (R271). -/
def execStbu (rs ra : RegNum) (d : BitVec 16) (s : State) : Res :=
  storeUpdate ra (s.gprOf rs) (s.eaDU ra d) 1 s

/-- stbux (R272). -/
def execStbux (rs ra rb : RegNum) (s : State) : Res :=
  storeUpdate ra (s.gprOf rs) (s.eaXU ra rb) 1 s

/-- sth (R273). -/
def execSth (rs ra : RegNum) (d : BitVec 16) (s : State) : Res :=
  storeFrom (s.gprOf rs) (s.eaD ra d) 2 s

/-- sthx (R274). -/
def execSthx (rs ra rb : RegNum) (s : State) : Res :=
  storeFrom (s.gprOf rs) (s.eaX ra rb) 2 s

/-- sthu (R275). -/
def execSthu (rs ra : RegNum) (d : BitVec 16) (s : State) : Res :=
  storeUpdate ra (s.gprOf rs) (s.eaDU ra d) 2 s

/-- sthux (R276). -/
def execSthux (rs ra rb : RegNum) (s : State) : Res :=
  storeUpdate ra (s.gprOf rs) (s.eaXU ra rb) 2 s

/-- stw (R277). -/
def execStw (rs ra : RegNum) (d : BitVec 16) (s : State) : Res :=
  storeFrom (s.gprOf rs) (s.eaD ra d) 4 s

/-- stwx (R278). -/
def execStwx (rs ra rb : RegNum) (s : State) : Res :=
  storeFrom (s.gprOf rs) (s.eaX ra rb) 4 s

/-- stwu (R279). -/
def execStwu (rs ra : RegNum) (d : BitVec 16) (s : State) : Res :=
  storeUpdate ra (s.gprOf rs) (s.eaDU ra d) 4 s

/-- stwux (R280). -/
def execStwux (rs ra rb : RegNum) (s : State) : Res :=
  storeUpdate ra (s.gprOf rs) (s.eaXU ra rb) 4 s

/-- std (R281). -/
def execStd (rs ra : RegNum) (ds : BitVec 14) (s : State) : Res :=
  storeFrom (s.gprOf rs) (s.eaDS ra ds) 8 s

/-- stdx (R282). -/
def execStdx (rs ra rb : RegNum) (s : State) : Res :=
  storeFrom (s.gprOf rs) (s.eaX ra rb) 8 s

/-- stdu (R283). -/
def execStdu (rs ra : RegNum) (ds : BitVec 14) (s : State) : Res :=
  storeUpdate ra (s.gprOf rs) (s.eaDSU ra ds) 8 s

/-- stdux (R284). -/
def execStdux (rs ra rb : RegNum) (s : State) : Res :=
  storeUpdate ra (s.gprOf rs) (s.eaXU ra rb) 8 s

end Sys2Proof.Machine
end

