-- ==== Sys2Proof/Machine/FpLoadStore.lean ====
section
/-!
DEFINITION. Floating-point loads, stores and moves (spec/48_fp_load_store_move.md).
-/
namespace Sys2Proof.Machine

/-! ## Shared operations -/

/-- A load of `n` bytes into FRT through `conv` (R580). -/
def fpLoad (frt : RegNum) (ea : DWord) (n : Nat) (conv : DWord → DWord) (single : Bool) (s : State) : Res :=
  loadThen ea n s fun v => finish (s.setFpr frt (conv v) single)

/-- A load with update: only RA = 0 is an invalid form (R580). -/
def fpLoadUpdate (frt ra : RegNum) (ea : DWord) (n : Nat) (conv : DWord → DWord) (single : Bool) (s : State) :
    Res :=
  if storeUpdateInvalid ra then raiseIllegal s
  else loadThen ea n s fun v => finish ((s.setFpr frt (conv v) single).setGpr ra ea)

/-- A loaded word in double format (R581). -/
def wordToDouble (v : DWord) : DWord := toDouble (lowWord v)

/-- The word stfs stores: undefined where `SINGLE` is (R590). -/
def State.singleToStore (s : State) (frs : RegNum) : DWord :=
  zext64 ((toSingle (s.fprOf frs)).getD (s.draw 32))

/-- A store that may have drawn an undefined value.  DESIGN CHOICE: the draw is what storage holds (log entry 28). -/
def fpStore (v ea : DWord) (n : Nat) (s : State) : Res := storeThen ea n v s fun s1 => finish s1.drawn

/-- A store with update that may have drawn an undefined value (R580). -/
def fpStoreUpdate (ra : RegNum) (v ea : DWord) (n : Nat) (s : State) : Res :=
  if storeUpdateInvalid ra then raiseIllegal s
  else storeThen ea n v s fun s1 => finish (s1.setGpr ra ea).drawn

/-- A Floating-Point Move: the ghost bit is copied (R610). -/
def fpMove (frt frb : RegNum) (rc : Bool) (v : DWord) (s : State) : Res :=
  finish ((s.setFpr frt v (s.singleOf frb)).record1 rc)

/-! ## Loads -/

/-- lfs (R582). -/
def execLfs (frt ra : RegNum) (d : BitVec 16) (s : State) : Res :=
  fpLoad frt (s.eaD ra d) 4 wordToDouble true s

/-- lfsx (R583). -/
def execLfsx (frt ra rb : RegNum) (s : State) : Res :=
  fpLoad frt (s.eaX ra rb) 4 wordToDouble true s

/-- lfsu (R584). -/
def execLfsu (frt ra : RegNum) (d : BitVec 16) (s : State) : Res :=
  fpLoadUpdate frt ra (s.eaDU ra d) 4 wordToDouble true s

/-- lfsux (R585). -/
def execLfsux (frt ra rb : RegNum) (s : State) : Res :=
  fpLoadUpdate frt ra (s.eaXU ra rb) 4 wordToDouble true s

/-- lfd (R586). -/
def execLfd (frt ra : RegNum) (d : BitVec 16) (s : State) : Res :=
  fpLoad frt (s.eaD ra d) 8 id false s

/-- lfdx (R587). -/
def execLfdx (frt ra rb : RegNum) (s : State) : Res :=
  fpLoad frt (s.eaX ra rb) 8 id false s

/-- lfdu (R588). -/
def execLfdu (frt ra : RegNum) (d : BitVec 16) (s : State) : Res :=
  fpLoadUpdate frt ra (s.eaDU ra d) 8 id false s

/-- lfdux (R589). -/
def execLfdux (frt ra rb : RegNum) (s : State) : Res :=
  fpLoadUpdate frt ra (s.eaXU ra rb) 8 id false s

/-! ## Stores -/

/-- stfs (R600). -/
def execStfs (frs ra : RegNum) (d : BitVec 16) (s : State) : Res :=
  fpStore (s.singleToStore frs) (s.eaD ra d) 4 s

/-- stfsx (R601). -/
def execStfsx (frs ra rb : RegNum) (s : State) : Res :=
  fpStore (s.singleToStore frs) (s.eaX ra rb) 4 s

/-- stfsu (R602). -/
def execStfsu (frs ra : RegNum) (d : BitVec 16) (s : State) : Res :=
  fpStoreUpdate ra (s.singleToStore frs) (s.eaDU ra d) 4 s

/-- stfsux (R603). -/
def execStfsux (frs ra rb : RegNum) (s : State) : Res :=
  fpStoreUpdate ra (s.singleToStore frs) (s.eaXU ra rb) 4 s

/-- stfd (R604). -/
def execStfd (frs ra : RegNum) (d : BitVec 16) (s : State) : Res :=
  storeFrom (s.fprOf frs) (s.eaD ra d) 8 s

/-- stfdx (R605). -/
def execStfdx (frs ra rb : RegNum) (s : State) : Res :=
  storeFrom (s.fprOf frs) (s.eaX ra rb) 8 s

/-- stfdu (R606). -/
def execStfdu (frs ra : RegNum) (d : BitVec 16) (s : State) : Res :=
  storeUpdate ra (s.fprOf frs) (s.eaDU ra d) 8 s

/-- stfdux (R607). -/
def execStfdux (frs ra rb : RegNum) (s : State) : Res :=
  storeUpdate ra (s.fprOf frs) (s.eaXU ra rb) 8 s

/-- stfiwx: undefined if FRS holds the product of a single-precision instruction (R608). -/
def execStfiwx (frs ra rb : RegNum) (s : State) : Res :=
  fpStore (if s.singleOf frs then zext64 (s.draw 32) else s.fprOf frs) (s.eaX ra rb) 4 s

/-! ## Moves -/

/-- fmr (R611). -/
def execFmr (frt frb : RegNum) (rc : Bool) (s : State) : Res := fpMove frt frb rc (s.fprOf frb) s

/-- fneg (R612). -/
def execFneg (frt frb : RegNum) (rc : Bool) (s : State) : Res :=
  fpMove frt frb rc (setBitAt (s.fprOf frb) 0 (!bitAt (s.fprOf frb) 0)) s

/-- fabs (R613). -/
def execFabs (frt frb : RegNum) (rc : Bool) (s : State) : Res :=
  fpMove frt frb rc (setBitAt (s.fprOf frb) 0 false) s

/-- fnabs (R614). -/
def execFnabs (frt frb : RegNum) (rc : Bool) (s : State) : Res :=
  fpMove frt frb rc (setBitAt (s.fprOf frb) 0 true) s

end Sys2Proof.Machine
end

