-- ==== Sys2Proof/Machine/FpOptional.lean ====
section
/-!
DEFINITION. The optional floating-point instructions (spec/49_optional.md R675 to R686).
-/
namespace Sys2Proof.Machine

/-! ## Square root -/

/-- fsqrts: FPRF FR FI FX XX VXSNAN VXSQRT (R677, R678). -/
def fpAlteredSqrt : Word := 0x8307F000 ||| fpVxsqrt

/-- Less than zero: neither a NaN nor a zero, sign 1 (R676). -/
def isNegative (b : DWord) : Bool := fpSign b && !isNaN b && !isZero b

/-- `FPSqrt(prec)` (R676). -/
def fpSqrt (fmt : FpFormat) (b : DWord) (f : Word) (u : Bool) : FpOutcome :=
  fpCompute fmt (vxsnanOf [b] ||| fpWhen (isNegative b) fpVxsqrt) [b]
    (if isZero b || isInf b then .exact b else .finite false (fpRoot b)) f u

/-- fsqrt (R677). -/
def execFsqrt (frt frb : RegNum) (rc : Bool) (s : State) : Res :=
  if !s.env.hasFpGeneral then raiseIllegal s
  else fpDouble frt rc (fun f u => fpSqrt .dp (s.fprOf frb) f (drawnBit u)) s

/-- fsqrts (R678). -/
def execFsqrts (frt frb : RegNum) (rc : Bool) (s : State) : Res :=
  if !s.env.hasFpGeneral then raiseIllegal s
  else fpSingle frt rc [s.fprOf frb] fpAlteredSqrt (fun f u => fpSqrt .sp (s.fprOf frb) f (drawnBit u)) s

/-! ## Estimates (R680, R681) -/

/-- fres: FPRF FR FI FX OX UX ZX XX VXSNAN (R682, R683). -/
def fpAlteredRecip : Word := fpAltered ||| fpZx
/-- frsqrtes: FPRF FR FI FX ZX XX VXSNAN VXSQRT (R684, R685). -/
def fpAlteredRsqrt : Word := 0x8707F000 ||| fpVxsqrt

/-- `abs(Val(x))` of a finite pattern. -/
def fpAbs (x : DWord) : Dyadic := ⟨fpSig x, fpWeight x⟩

/-- The integer `n` as an exact number. -/
def Dyadic.ofNat (n : Nat) : Dyadic := ⟨n, 0⟩

/-- `|Val(r) - t| ≤ |t| / k`, in magnitude: for t = 1/x, `k - 1 ≤ k * r * x ≤ k + 1` with k = 256; for
t = 1/sqrt(x), `(k - 1)^2 ≤ k^2 * r^2 * x ≤ (k + 1)^2` with k = 32. -/
def estimateClose (rsqrt : Bool) (r b : DWord) : Bool :=
  if rsqrt then
    let y := (Dyadic.ofNat 1024).mul (((fpAbs r).mul (fpAbs r)).mul (fpAbs b))
    (Dyadic.ofNat 961).le y && y.le (Dyadic.ofNat 1089)
  else
    let y := (Dyadic.ofNat 256).mul ((fpAbs r).mul (fpAbs b))
    (Dyadic.ofNat 255).le y && y.le (Dyadic.ofNat 257)

/-- `|t| * (1 - 1/k) < 2^Emin`: the estimate of a reciprocal may underflow (R681). -/
def recipSmall (fmt : FpFormat) (b : DWord) : Bool :=
  !((Dyadic.ofNat 256).mul ((fpAbs b).mul ⟨1, fmt.emin⟩)).le (Dyadic.ofNat 255)

/-- `|t| * (1 + 1/k) > MaxFin`: the estimate of a reciprocal may overflow (R681). -/
def recipLarge (fmt : FpFormat) (b : DWord) : Bool :=
  !(Dyadic.ofNat 257).le ((Dyadic.ofNat 256).mul ((fpAbs b).mul (fpAbs fmt.maxFin)))

/-- The contract of an estimate `r` of a nonzero finite operand (R681 (a) to (c)). -/
def estimateAllowed (fmt : FpFormat) (rsqrt : Bool) (r b : DWord) : Bool :=
  fpSign r == fpSign b && (fmt.p == 53 || repSingle r) && !isNaN r &&
    if !rsqrt && (recipSmall fmt b || recipLarge fmt b) then
      isInf r || isZero r || decide (fpExp r < fmt.minExp) || estimateClose rsqrt r b
    else isNumber r && estimateClose rsqrt r b

/-- `1.0`. -/
def fpOne : DWord := 0x3FF0000000000000

/-- The reciprocal square root of a positive number: the reciprocal of the 64 leading bits of the root, which is
within the contract. -/
def fpRsqrtMagnitude (b : DWord) : Magnitude :=
  let root := fpRoot b
  ⟨2 ^ 192 / root.sig, -192 - root.exp, true⟩

/-- The estimate the model falls back on when a draw breaks the contract: the result rounded to nearest. -/
def estimateNearest (fmt : FpFormat) (rsqrt : Bool) (b : DWord) : DWord :=
  ((roundResult fmt (fpSign b) (if rsqrt then fpRsqrtMagnitude b else fpQuotient fpOne b) 0 false).frt).getD 0

/-- `ESTIMATE_RECIP` and `ESTIMATE_RSQRT`: any value the contract allows, by the draw `u`.  DESIGN CHOICE: a draw that
breaks the contract stands for the nearest result (log entry 19). -/
def estimate (fmt : FpFormat) (rsqrt : Bool) (b u : DWord) : DWord :=
  if estimateAllowed fmt rsqrt u b then u else estimateNearest fmt rsqrt b

/-- FR, FI and XX undefined, from a draw (R680).  DESIGN CHOICE: the draw is stored in the FPSCR (log entry 28). -/
def estimateStatus (f : Word) (u : DWord) : Word :=
  setBitAt (setFrFi f (bitAt u 63) (bitAt u 62)) 6 (bitAt u 61)

/-- The FPSCR and FRT of `FPEstimate(prec, kind)`, `v` being the draw of the estimate and `u` that of the undefined bits
(R680). -/
def estimateResult (fmt : FpFormat) (rsqrt : Bool) (b : DWord) (f : Word) (u v : DWord) : Word × Option DWord :=
  let f1 := estimateStatus f u
  let vx := vxsnanOf [b] ||| fpWhen (rsqrt && isNegative b) fpVxsqrt
  if vx ≠ 0 then
    if fpVe f then (f1 ||| vx, none) else (setFprf (f1 ||| vx) 0b10001, some (nanResult [b]))
  else if isNaN b then (setFprf f1 0b10001, some b)
  else if isZero b then
    if fpZe f then (f1 ||| fpZx, none)
    else (setFprf (f1 ||| fpZx) (fpClass fmt (fpInf (fpSign b))), some (fpInf (fpSign b)))
  else if isInf b then (setFprf f1 (fpClass fmt (fpZero (fpSign b))), some (fpZero (fpSign b)))
  else
    let r := estimate fmt rsqrt b v
    let bits := fpWhen (bitAt u 60 && !rsqrt && recipLarge fmt b) fpOx |||
      fpWhen (bitAt u 59 && !rsqrt && recipSmall fmt b) fpUx
    (setFprf (f1 ||| bits) (fpClass fmt r), some r)

/-- `FPEstimate`: FEX = 1 afterwards counts as an exception caused (R680). -/
def fpEstimate (fmt : FpFormat) (rsqrt : Bool) (b : DWord) (f : Word) (u v : DWord) : FpOutcome :=
  let r := estimateResult fmt rsqrt b f u v
  ⟨r.1, r.2, fpscrFex r.1⟩

/-- An estimate instruction: two draws. -/
def fpEstimateRun (fmt : FpFormat) (single rsqrt : Bool) (frt frb : RegNum) (rc : Bool) (s : State) : Res :=
  fpRun frt single rc
    (fun f v => fpEstimate fmt rsqrt (s.fprOf frb) f (s.draw 64) v) s.drawn

/-- fre (R682). -/
def execFre (frt frb : RegNum) (rc : Bool) (s : State) : Res :=
  if !s.env.hasFpGraphics then raiseIllegal s
  else fpGuard s fun _ => fpEstimateRun .dp false false frt frb rc s

/-- fres (R683). -/
def execFres (frt frb : RegNum) (rc : Bool) (s : State) : Res :=
  if !s.env.hasFpGraphics then raiseIllegal s
  else fpGuard s fun _ =>
    if repSingle (s.fprOf frb) then fpEstimateRun .sp true false frt frb rc s
    else fpUndefined frt rc fpAlteredRecip s

/-- frsqrte (R684). -/
def execFrsqrte (frt frb : RegNum) (rc : Bool) (s : State) : Res :=
  if !s.env.hasFpGraphics then raiseIllegal s
  else fpGuard s fun _ => fpEstimateRun .dp false true frt frb rc s

/-- frsqrtes (R685). -/
def execFrsqrtes (frt frb : RegNum) (rc : Bool) (s : State) : Res :=
  if !s.env.hasFpGraphics then raiseIllegal s
  else fpGuard s fun _ =>
    if repSingle (s.fprOf frb) then fpEstimateRun .sp true true frt frb rc s
    else fpUndefined frt rc fpAlteredRsqrt s

/-! ## Select -/

/-- fsel: no FPSCR bit changes and no exception occurs (R686). -/
def execFsel (frt fra frb frc : RegNum) (rc : Bool) (s : State) : Res :=
  if !s.env.hasFpGraphics then raiseIllegal s
  else
    let a := s.fprOf fra
    finish ((s.setFpr frt
      (if !isNaN a && (isZero a || !fpSign a) then s.fprOf frc else s.fprOf frb) false).record1 rc)

end Sys2Proof.Machine
end

