-- ==== Sys2Proof/Machine/Logical.lean ====
section
/-!
DEFINITION. Fixed-point compare, trap and logical instructions (spec/44_fx_compare_trap_logical.md).
-/
namespace Sys2Proof.Machine

/-! ## Shared operations -/

/-- The operand of a signed compare or trap: the whole register when `doubleword`, else its low word sign-extended
(R380 to R382, R392, R394). -/
def signedOperand (doubleword : Bool) (x : DWord) : DWord := if doubleword then x else sext64 (lowWord x)

/-- The operand of an unsigned compare: the whole register when `doubleword`, else its low word zero-extended
(R383, R384). -/
def unsignedOperand (doubleword : Bool) (x : DWord) : DWord := if doubleword then x else zext64 (lowWord x)

/-- A signed compare into CR field BF (R381, R382). -/
def compareSigned (bf : BitVec 3) (a b : DWord) (s : State) : Res :=
  finish (s.setCompare bf (orderCode a.toInt b.toInt))

/-- An unsigned compare into CR field BF (R383, R384). -/
def compareUnsigned (bf : BitVec 3) (a b : DWord) (s : State) : Res :=
  finish (s.setCompare bf (orderCode a.toNat b.toNat))

/-- The five conditions of a trap: signed less, signed greater, equal, unsigned less, unsigned greater (R390). -/
def trapConditions (a b : DWord) : BitVec 5 :=
  BitVec.ofBool (decide (a.toInt < b.toInt)) ++ BitVec.ofBool (decide (b.toInt < a.toInt)) ++
    BitVec.ofBool (decide (a = b)) ++ BitVec.ofBool (decide (a.toNat < b.toNat)) ++
    BitVec.ofBool (decide (b.toNat < a.toNat))

/-- `TrapTest(a, b, TO)`: trap when a condition that TO selects holds, else go on (R390). -/
def trapTest (a b : DWord) (tos : BitVec 5) (s : State) : Res :=
  if trapConditions a b &&& tos = 0 then finish s else raiseTrap s

/-- The number of leading 0 bits of a value, its width if it is 0 (R416, R417). -/
def leadingZeros {w : Nat} (x : BitVec w) : Nat := if x.toNat = 0 then w else w - 1 - x.toNat.log2

/-- The number of 1 bits among the low `n` bits (R418). -/
def popCount (x : Byte) : Nat → Nat
  | 0 => 0
  | n + 1 => (if x.getLsbD n then 1 else 0) + popCount x n

/-- The count of 1 bits of byte `i` of `x`, as a byte (R418). -/
def popCountByte (x : DWord) (i : Nat) : Byte := BitVec.ofNat 8 (popCount (fld x (8 * i) 8) 8)

/-! ## Compare and trap -/

/-- cmpi (R381). -/
def execCmpi (bf : BitVec 3) (l : Bool) (ra : RegNum) (si : BitVec 16) (s : State) : Res :=
  compareSigned bf (signedOperand l (s.gprOf ra)) (sext64 si) s

/-- cmp (R382). -/
def execCmp (bf : BitVec 3) (l : Bool) (ra rb : RegNum) (s : State) : Res :=
  compareSigned bf (signedOperand l (s.gprOf ra)) (signedOperand l (s.gprOf rb)) s

/-- cmpli (R383). -/
def execCmpli (bf : BitVec 3) (l : Bool) (ra : RegNum) (ui : BitVec 16) (s : State) : Res :=
  compareUnsigned bf (unsignedOperand l (s.gprOf ra)) (uiLow ui) s

/-- cmpl (R384). -/
def execCmpl (bf : BitVec 3) (l : Bool) (ra rb : RegNum) (s : State) : Res :=
  compareUnsigned bf (unsignedOperand l (s.gprOf ra)) (unsignedOperand l (s.gprOf rb)) s

/-- tdi (R391). -/
def execTdi (tos : BitVec 5) (ra : RegNum) (si : BitVec 16) (s : State) : Res :=
  trapTest (s.gprOf ra) (sext64 si) tos s

/-- twi (R392). -/
def execTwi (tos : BitVec 5) (ra : RegNum) (si : BitVec 16) (s : State) : Res :=
  trapTest (signedOperand false (s.gprOf ra)) (sext64 si) tos s

/-- td (R393). -/
def execTd (tos : BitVec 5) (ra rb : RegNum) (s : State) : Res :=
  trapTest (s.gprOf ra) (s.gprOf rb) tos s

/-- tw (R394). -/
def execTw (tos : BitVec 5) (ra rb : RegNum) (s : State) : Res :=
  trapTest (signedOperand false (s.gprOf ra)) (signedOperand false (s.gprOf rb)) tos s

/-! ## Logical, immediate -/

/-- andi. records always (R397). -/
def execAndiRec (rs ra : RegNum) (ui : BitVec 16) (s : State) : Res :=
  writeResult ra (s.gprOf rs &&& uiLow ui) true s

/-- andis. records always (R398). -/
def execAndisRec (rs ra : RegNum) (ui : BitVec 16) (s : State) : Res :=
  writeResult ra (s.gprOf rs &&& uiHigh ui) true s

/-- ori; `ori 0,0,0` is the preferred no-op (R401). -/
def execOri (rs ra : RegNum) (ui : BitVec 16) (s : State) : Res :=
  writeResult ra (s.gprOf rs ||| uiLow ui) false s

/-- oris (R402). -/
def execOris (rs ra : RegNum) (ui : BitVec 16) (s : State) : Res :=
  writeResult ra (s.gprOf rs ||| uiHigh ui) false s

/-- xori (R403). -/
def execXori (rs ra : RegNum) (ui : BitVec 16) (s : State) : Res :=
  writeResult ra (s.gprOf rs ^^^ uiLow ui) false s

/-- xoris (R404). -/
def execXoris (rs ra : RegNum) (ui : BitVec 16) (s : State) : Res :=
  writeResult ra (s.gprOf rs ^^^ uiHigh ui) false s

/-! ## Logical, register -/

/-- and (R405). -/
def execAnd (rs ra rb : RegNum) (rc : Bool) (s : State) : Res :=
  writeResult ra (s.gprOf rs &&& s.gprOf rb) rc s

/-- or; the priority hints `or Rx,Rx,Rx` change nothing (R400) (R406). -/
def execOr (rs ra rb : RegNum) (rc : Bool) (s : State) : Res :=
  writeResult ra (s.gprOf rs ||| s.gprOf rb) rc s

/-- xor (R407). -/
def execXor (rs ra rb : RegNum) (rc : Bool) (s : State) : Res :=
  writeResult ra (s.gprOf rs ^^^ s.gprOf rb) rc s

/-- nand (R408). -/
def execNand (rs ra rb : RegNum) (rc : Bool) (s : State) : Res :=
  writeResult ra (~~~(s.gprOf rs &&& s.gprOf rb)) rc s

/-- nor (R409). -/
def execNor (rs ra rb : RegNum) (rc : Bool) (s : State) : Res :=
  writeResult ra (~~~(s.gprOf rs ||| s.gprOf rb)) rc s

/-- eqv (90_conflicts.md C25) (R410). -/
def execEqv (rs ra rb : RegNum) (rc : Bool) (s : State) : Res :=
  writeResult ra (~~~(s.gprOf rs ^^^ s.gprOf rb)) rc s

/-- andc (R411). -/
def execAndc (rs ra rb : RegNum) (rc : Bool) (s : State) : Res :=
  writeResult ra (s.gprOf rs &&& ~~~s.gprOf rb) rc s

/-- orc (R412). -/
def execOrc (rs ra rb : RegNum) (rc : Bool) (s : State) : Res :=
  writeResult ra (s.gprOf rs ||| ~~~s.gprOf rb) rc s

/-- extsb (R413). -/
def execExtsb (rs ra : RegNum) (rc : Bool) (s : State) : Res :=
  writeResult ra (sext64 ((s.gprOf rs).setWidth 8)) rc s

/-- extsh (R414). -/
def execExtsh (rs ra : RegNum) (rc : Bool) (s : State) : Res :=
  writeResult ra (sext64 ((s.gprOf rs).setWidth 16)) rc s

/-- extsw (R415). -/
def execExtsw (rs ra : RegNum) (rc : Bool) (s : State) : Res :=
  writeResult ra (sext64 (lowWord (s.gprOf rs))) rc s

/-- cntlzd (R416). -/
def execCntlzd (rs ra : RegNum) (rc : Bool) (s : State) : Res :=
  writeResult ra (BitVec.ofNat 64 (leadingZeros (s.gprOf rs))) rc s

/-- cntlzw (R417). -/
def execCntlzw (rs ra : RegNum) (rc : Bool) (s : State) : Res :=
  writeResult ra (BitVec.ofNat 64 (leadingZeros (lowWord (s.gprOf rs)))) rc s

/-- popcntb (R418). -/
def execPopcntb (rs ra : RegNum) (s : State) : Res :=
  let c := popCountByte (s.gprOf rs)
  writeResult ra (c 0 ++ c 1 ++ c 2 ++ c 3 ++ c 4 ++ c 5 ++ c 6 ++ c 7) false s

end Sys2Proof.Machine
end

