-- ==== Sys2Proof/Machine/Multiple.lean ====
section
/-!
DEFINITION. Byte-reversed, multiple and string loads and stores (spec/42_fx_multiple_string.md).
-/
namespace Sys2Proof.Machine

/-! ## Shared operations -/

/-- The low-order halfword of `v` with its bytes reversed (R302, R304). -/
def reverseHalf (v : DWord) : DWord := zext64 (fld v 56 8 ++ fld v 48 8)

/-- The low-order word of `v` with its bytes reversed (R303, R305). -/
def reverseWord (v : DWord) : DWord := zext64 (fld v 56 8 ++ fld v 48 8 ++ fld v 40 8 ++ fld v 32 8)

/-- `n` words from `ea` up into registers from `r` up, the high-order words 0 (R307). -/
def State.loadWords (s : State) (r : RegNum) (ea : DWord) : Nat → State
  | 0 => s
  | n + 1 => (s.setGpr r (s.memRead ea 4)).loadWords (r + 1) (ea + 4) n

/-- The low-order words of `n` registers from `r` up stored from `ea` up (R308). -/
def State.storeWords (s : State) (r : RegNum) (ea : DWord) : Nat → State
  | 0 => s
  | n + 1 => (s.memWrite ea 4 (s.gprOf r)).storeWords (r + 1) (ea + 4) n

/-- The `n` registers from `r` up, modulo 32, set to 0 (R311). -/
def State.clearRegs (s : State) (r : RegNum) : Nat → State
  | 0 => s
  | n + 1 => (s.setGpr r 0).clearRegs (r + 1) n

/-- Byte `j` of a string goes to or comes from this register (R310). -/
def stringReg (r : RegNum) (j : Nat) : RegNum := r + BitVec.ofNat 5 (j / 4)

/-- … at this first bit of it (R310). -/
def stringBit (j : Nat) : Nat := 32 + 8 * (j % 4)

/-- Bytes `j`, `j+1`, … (`n` of them) of the string at `ea` put into the registers from `r` up (R310, R311). -/
def State.loadString (s : State) (r : RegNum) (ea : DWord) (j : Nat) : Nat → State
  | 0 => s
  | n + 1 =>
    (s.setGpr (stringReg r j)
      (setFld (s.gprOf (stringReg r j)) (stringBit j) (s.byteAt (ea + BitVec.ofNat 64 j)))).loadString r ea (j + 1) n

/-- Bytes `j`, `j+1`, … (`n` of them) of the string in the registers from `r` up stored at `ea` (R310, R313). -/
def State.storeString (s : State) (r : RegNum) (ea : DWord) (j : Nat) : Nat → State
  | 0 => s
  | n + 1 =>
    (s.storeByte (ea + BitVec.ofNat 64 j) (fld (s.gprOf (stringReg r j)) (stringBit j) 8)).storeString r ea (j + 1) n

/-- The transfer of a load string of `n` bytes: its registers cleared, then filled (R311). -/
def State.loadStringInto (s : State) (r : RegNum) (ea : DWord) (n : Nat) : State :=
  (s.clearRegs r (regsForBytes n)).loadString r ea 0 n

/-- How many registers from `r` to 31 (R307, R308). -/
def regsTo31 (r : RegNum) : Nat := 32 - r.toNat

/-! ## Byte reversal -/

/-- lhbrx (R302). -/
def execLhbrx (rt ra rb : RegNum) (s : State) : Res := loadInto rt (s.eaX ra rb) 2 reverseHalf s

/-- lwbrx (R303). -/
def execLwbrx (rt ra rb : RegNum) (s : State) : Res := loadInto rt (s.eaX ra rb) 4 reverseWord s

/-- sthbrx (R304). -/
def execSthbrx (rs ra rb : RegNum) (s : State) : Res :=
  storeFrom (reverseHalf (s.gprOf rs)) (s.eaX ra rb) 2 s

/-- stwbrx (R305). -/
def execStwbrx (rs ra rb : RegNum) (s : State) : Res :=
  storeFrom (reverseWord (s.gprOf rs)) (s.eaX ra rb) 4 s

/-! ## Multiple -/

/-- lmw (R307, R301). -/
def execLmw (rt ra : RegNum) (d : BitVec 16) (s : State) : Res :=
  if lmwInvalid rt ra then raiseIllegal s
  else checkedMultiple .load true (s.eaD ra d) (regsTo31 rt) s fun _ =>
    finish (s.loadWords rt (s.eaD ra d) (regsTo31 rt))

/-- stmw (R308, R301). -/
def execStmw (rs ra : RegNum) (d : BitVec 16) (s : State) : Res :=
  checkedMultiple .store true (s.eaD ra d) (regsTo31 rs) s fun _ =>
    finish (s.storeWords rs (s.eaD ra d) (regsTo31 rs))

/-! ## String -/

/-- lswi (R311, R301). -/
def execLswi (rt ra : RegNum) (nb : BitVec 5) (s : State) : Res :=
  if stringRangeInvalid rt ra (nbBytes nb) then raiseIllegal s
  else checkedMultiple .load false (s.ra0 ra) (nbBytes nb) s fun _ =>
    finish (s.loadStringInto rt (s.ra0 ra) (nbBytes nb))

/-- lswx: the register-range test uses the byte count of the XER; a count of 0 leaves RT undefined (R312, R301).
DESIGN CHOICE: the draw is stored in RT (log entry 28). -/
def execLswx (rt ra rb : RegNum) (s : State) : Res :=
  let n := s.byteCount
  if lswxFormInvalid rt ra rb || stringRangeInvalid rt ra n || stringRangeInvalid rt rb n then raiseIllegal s
  else checkedMultiple .load false (s.eaX ra rb) n s fun _ =>
    if n = 0 then finish (s.setGpr rt (s.draw 64)).drawn
    else finish (s.loadStringInto rt (s.eaX ra rb) n)

/-- stswi (R313, R301). -/
def execStswi (rs ra : RegNum) (nb : BitVec 5) (s : State) : Res :=
  checkedMultiple .store false (s.ra0 ra) (nbBytes nb) s fun _ =>
    finish (s.storeString rs (s.ra0 ra) 0 (nbBytes nb))

/-- stswx (R314, R301). -/
def execStswx (rs ra rb : RegNum) (s : State) : Res :=
  checkedMultiple .store false (s.eaX ra rb) s.byteCount s fun _ =>
    finish (s.storeString rs (s.eaX ra rb) 0 s.byteCount)

end Sys2Proof.Machine
end

