-- ==== Sys2Proof/Machine/Rotate.lean ====
section
/-!
DEFINITION. Fixed-point rotate and shift instructions (spec/45_fx_rotate_shift.md).
-/
namespace Sys2Proof.Machine

/-! ## Shared operations -/

/-- `ROTL64(x, n)` (R440). -/
def rotl64 (x : DWord) (n : Nat) : DWord := x.rotateLeft n

/-- `ROTL32(w, n)`: the word doubled, then rotated (R440). -/
def rotl32 (w : Word) (n : Nat) : DWord := rotl64 (w ++ w) n

/-- `MASK(mstart, mstop)`: 1s from mstart through mstop, wrapping when mstart > mstop (R441). -/
def maskBits (mstart mstop : Nat) : DWord :=
  let starting := BitVec.allOnes 64 >>> mstart
  let stopping := BitVec.allOnes 64 <<< (63 - mstop)
  if mstart ≤ mstop then starting &&& stopping else starting ||| stopping

/-- `MASK(MB + 32, ME + 32)` (R448). -/
def maskWord (mb me : BitVec 5) : DWord := maskBits (mb.toNat + 32) (me.toNat + 32)

/-- `(r & m) | (old & ~m)`: insertion under a mask (R452, R453). -/
def underMask (r m old : DWord) : DWord := (r &&& m) ||| (old &&& ~~~m)

/-- `GPR[RB][58:63]`, the doubleword shift amount, and its bit 57, the overshift (R456, R458, R462). -/
def shiftAmount64 (x : DWord) : Nat := (fld x 58 6).toNat

/-- `GPR[RB][59:63]`, the word shift amount (R457, R459, R463). -/
def shiftAmount32 (x : DWord) : Nat := (fld x 59 5).toNat

/-- `m` unless the amount's overshift bit is set, then zeros (R456 to R459, R462, R463). -/
def unlessOver (c : Bool) (m : DWord) : DWord := if c then 0 else m

/-- The sign `sign` filled in outside the mask (R455, R460 to R463). -/
def signFill (r m : DWord) (sign : Bool) : DWord :=
  underMask r m (if sign then BitVec.allOnes 64 else 0)

/-- A Shift Right Algebraic result: CA when 1-bits of a negative operand were shifted out (of the word when `word`),
the target, CR Field 0 (R455, R460 to R463). -/
def shiftAlgebraic (ra : RegNum) (r m : DWord) (sign word rc : Bool) (s : State) : Res :=
  let lost := r &&& ~~~m
  let ca := sign && (if word then lowWord lost != 0 else lost != 0)
  writeResult ra (signFill r m sign) rc (s.setCa ca)

/-! ## Rotate -/

/-- rldicl (R445). -/
def execRldicl (rs ra : RegNum) (sh mb : BitVec 6) (rc : Bool) (s : State) : Res :=
  writeResult ra (rotl64 (s.gprOf rs) sh.toNat &&& maskBits mb.toNat 63) rc s

/-- rldicr (R446). -/
def execRldicr (rs ra : RegNum) (sh me : BitVec 6) (rc : Bool) (s : State) : Res :=
  writeResult ra (rotl64 (s.gprOf rs) sh.toNat &&& maskBits 0 me.toNat) rc s

/-- rldic (R447). -/
def execRldic (rs ra : RegNum) (sh mb : BitVec 6) (rc : Bool) (s : State) : Res :=
  writeResult ra (rotl64 (s.gprOf rs) sh.toNat &&& maskBits mb.toNat (63 - sh.toNat)) rc s

/-- rlwinm (R448). -/
def execRlwinm (rs ra : RegNum) (sh mb me : BitVec 5) (rc : Bool) (s : State) : Res :=
  writeResult ra (rotl32 (lowWord (s.gprOf rs)) sh.toNat &&& maskWord mb me) rc s

/-- rldcl (R449). -/
def execRldcl (rs ra rb : RegNum) (mb : BitVec 6) (rc : Bool) (s : State) : Res :=
  writeResult ra (rotl64 (s.gprOf rs) (shiftAmount64 (s.gprOf rb)) &&& maskBits mb.toNat 63) rc s

/-- rldcr (R450). -/
def execRldcr (rs ra rb : RegNum) (me : BitVec 6) (rc : Bool) (s : State) : Res :=
  writeResult ra (rotl64 (s.gprOf rs) (shiftAmount64 (s.gprOf rb)) &&& maskBits 0 me.toNat) rc s

/-- rlwnm (R451). -/
def execRlwnm (rs ra rb : RegNum) (mb me : BitVec 5) (rc : Bool) (s : State) : Res :=
  writeResult ra (rotl32 (lowWord (s.gprOf rs)) (shiftAmount32 (s.gprOf rb)) &&& maskWord mb me) rc s

/-- rldimi (R452). -/
def execRldimi (rs ra : RegNum) (sh mb : BitVec 6) (rc : Bool) (s : State) : Res :=
  writeResult ra (underMask (rotl64 (s.gprOf rs) sh.toNat) (maskBits mb.toNat (63 - sh.toNat)) (s.gprOf ra)) rc s

/-- rlwimi (R453). -/
def execRlwimi (rs ra : RegNum) (sh mb me : BitVec 5) (rc : Bool) (s : State) : Res :=
  writeResult ra (underMask (rotl32 (lowWord (s.gprOf rs)) sh.toNat) (maskWord mb me) (s.gprOf ra)) rc s

/-! ## Shift -/

/-- sld (R456). -/
def execSld (rs ra rb : RegNum) (rc : Bool) (s : State) : Res :=
  let n := shiftAmount64 (s.gprOf rb)
  writeResult ra (rotl64 (s.gprOf rs) n &&& unlessOver (bitAt (s.gprOf rb) 57) (maskBits 0 (63 - n))) rc s

/-- slw (R457). -/
def execSlw (rs ra rb : RegNum) (rc : Bool) (s : State) : Res :=
  let n := shiftAmount32 (s.gprOf rb)
  writeResult ra
    (rotl32 (lowWord (s.gprOf rs)) n &&& unlessOver (bitAt (s.gprOf rb) 58) (maskBits 32 (63 - n))) rc s

/-- srd (R458). -/
def execSrd (rs ra rb : RegNum) (rc : Bool) (s : State) : Res :=
  let n := shiftAmount64 (s.gprOf rb)
  writeResult ra (rotl64 (s.gprOf rs) (64 - n) &&& unlessOver (bitAt (s.gprOf rb) 57) (maskBits n 63)) rc s

/-- srw (R459). -/
def execSrw (rs ra rb : RegNum) (rc : Bool) (s : State) : Res :=
  let n := shiftAmount32 (s.gprOf rb)
  writeResult ra
    (rotl32 (lowWord (s.gprOf rs)) (64 - n) &&& unlessOver (bitAt (s.gprOf rb) 58) (maskBits (n + 32) 63)) rc s

/-- sradi (R460). -/
def execSradi (rs ra : RegNum) (sh : BitVec 6) (rc : Bool) (s : State) : Res :=
  shiftAlgebraic ra (rotl64 (s.gprOf rs) (64 - sh.toNat)) (maskBits sh.toNat 63) (bitAt (s.gprOf rs) 0) false rc s

/-- srawi (R461). -/
def execSrawi (rs ra : RegNum) (sh : BitVec 5) (rc : Bool) (s : State) : Res :=
  shiftAlgebraic ra (rotl32 (lowWord (s.gprOf rs)) (64 - sh.toNat)) (maskBits (sh.toNat + 32) 63)
    (bitAt (s.gprOf rs) 32) true rc s

/-- srad (R462). -/
def execSrad (rs ra rb : RegNum) (rc : Bool) (s : State) : Res :=
  let n := shiftAmount64 (s.gprOf rb)
  shiftAlgebraic ra (rotl64 (s.gprOf rs) (64 - n)) (unlessOver (bitAt (s.gprOf rb) 57) (maskBits n 63))
    (bitAt (s.gprOf rs) 0) false rc s

/-- sraw (R463). -/
def execSraw (rs ra rb : RegNum) (rc : Bool) (s : State) : Res :=
  let n := shiftAmount32 (s.gprOf rb)
  shiftAlgebraic ra (rotl32 (lowWord (s.gprOf rs)) (64 - n))
    (unlessOver (bitAt (s.gprOf rb) 58) (maskBits (n + 32) 63)) (bitAt (s.gprOf rs) 32) true rc s

end Sys2Proof.Machine
end

