-- ==== Sys2Proof/Machine/Dispatch.lean ====
section
/-!
DEFINITION. One arm per constructor of Instr: the instruction's meaning (spec/30_encoding.md R172).
-/
namespace Sys2Proof.Machine

def exec (i : Instr) (s : State) : Host.Outcome State Fault Refusal :=
  match i with
  | .tdi tos ra si => Sys2Proof.Machine.execTdi tos ra si s
  | .twi tos ra si => Sys2Proof.Machine.execTwi tos ra si s
  | .mulli rt ra si => Sys2Proof.Machine.execMulli rt ra si s
  | .subfic rt ra si => Sys2Proof.Machine.execSubfic rt ra si s
  | .cmpli bf l ra ui => Sys2Proof.Machine.execCmpli bf l ra ui s
  | .cmpi bf l ra si => Sys2Proof.Machine.execCmpi bf l ra si s
  | .addic rt ra si => Sys2Proof.Machine.execAddic rt ra si s
  | .addicRec rt ra si => Sys2Proof.Machine.execAddicRec rt ra si s
  | .addi rt ra si => Sys2Proof.Machine.execAddi rt ra si s
  | .addis rt ra si => Sys2Proof.Machine.execAddis rt ra si s
  | .bc bo bi bd aa lk => Sys2Proof.Machine.execBc bo bi bd aa lk s
  | .sc lev bit30 => Sys2Proof.Machine.execSc lev bit30 s
  | .b li aa lk => Sys2Proof.Machine.execB li aa lk s
  | .mcrf bf bfa => Sys2Proof.Machine.execMcrf bf bfa s
  | .bclr bo bi bh lk => Sys2Proof.Machine.execBclr bo bi bh lk s
  | .crnor bt ba bb => Sys2Proof.Machine.execCrnor bt ba bb s
  | .crandc bt ba bb => Sys2Proof.Machine.execCrandc bt ba bb s
  | .crxor bt ba bb => Sys2Proof.Machine.execCrxor bt ba bb s
  | .crnand bt ba bb => Sys2Proof.Machine.execCrnand bt ba bb s
  | .crand bt ba bb => Sys2Proof.Machine.execCrand bt ba bb s
  | .creqv bt ba bb => Sys2Proof.Machine.execCreqv bt ba bb s
  | .crorc bt ba bb => Sys2Proof.Machine.execCrorc bt ba bb s
  | .cror bt ba bb => Sys2Proof.Machine.execCror bt ba bb s
  | .bcctr bo bi bh lk => Sys2Proof.Machine.execBcctr bo bi bh lk s
  | .rlwimi rs ra sh mb me rc => Sys2Proof.Machine.execRlwimi rs ra sh mb me rc s
  | .rlwinm rs ra sh mb me rc => Sys2Proof.Machine.execRlwinm rs ra sh mb me rc s
  | .rlwnm rs ra rb mb me rc => Sys2Proof.Machine.execRlwnm rs ra rb mb me rc s
  | .ori rs ra ui => Sys2Proof.Machine.execOri rs ra ui s
  | .oris rs ra ui => Sys2Proof.Machine.execOris rs ra ui s
  | .xori rs ra ui => Sys2Proof.Machine.execXori rs ra ui s
  | .xoris rs ra ui => Sys2Proof.Machine.execXoris rs ra ui s
  | .andiRec rs ra ui => Sys2Proof.Machine.execAndiRec rs ra ui s
  | .andisRec rs ra ui => Sys2Proof.Machine.execAndisRec rs ra ui s
  | .rldicl rs ra sh mb rc => Sys2Proof.Machine.execRldicl rs ra sh mb rc s
  | .rldicr rs ra sh me rc => Sys2Proof.Machine.execRldicr rs ra sh me rc s
  | .rldic rs ra sh mb rc => Sys2Proof.Machine.execRldic rs ra sh mb rc s
  | .rldimi rs ra sh mb rc => Sys2Proof.Machine.execRldimi rs ra sh mb rc s
  | .rldcl rs ra rb mb rc => Sys2Proof.Machine.execRldcl rs ra rb mb rc s
  | .rldcr rs ra rb me rc => Sys2Proof.Machine.execRldcr rs ra rb me rc s
  | .cmp bf l ra rb => Sys2Proof.Machine.execCmp bf l ra rb s
  | .tw tos ra rb => Sys2Proof.Machine.execTw tos ra rb s
  | .subfc rt ra rb oe rc => Sys2Proof.Machine.execSubfc rt ra rb oe rc s
  | .mulhdu rt ra rb rc => Sys2Proof.Machine.execMulhdu rt ra rb rc s
  | .addc rt ra rb oe rc => Sys2Proof.Machine.execAddc rt ra rb oe rc s
  | .mulhwu rt ra rb rc => Sys2Proof.Machine.execMulhwu rt ra rb rc s
  | .mfcr rt => Sys2Proof.Machine.execMfcr rt s
  | .mfocrf rt fxm => Sys2Proof.Machine.execMfocrf rt fxm s
  | .ldx rt ra rb => Sys2Proof.Machine.execLdx rt ra rb s
  | .lwzx rt ra rb => Sys2Proof.Machine.execLwzx rt ra rb s
  | .slw rs ra rb rc => Sys2Proof.Machine.execSlw rs ra rb rc s
  | .cntlzw rs ra rc => Sys2Proof.Machine.execCntlzw rs ra rc s
  | .sld rs ra rb rc => Sys2Proof.Machine.execSld rs ra rb rc s
  | .and rs ra rb rc => Sys2Proof.Machine.execAnd rs ra rb rc s
  | .cmpl bf l ra rb => Sys2Proof.Machine.execCmpl bf l ra rb s
  | .subf rt ra rb oe rc => Sys2Proof.Machine.execSubf rt ra rb oe rc s
  | .ldux rt ra rb => Sys2Proof.Machine.execLdux rt ra rb s
  | .lwzux rt ra rb => Sys2Proof.Machine.execLwzux rt ra rb s
  | .cntlzd rs ra rc => Sys2Proof.Machine.execCntlzd rs ra rc s
  | .andc rs ra rb rc => Sys2Proof.Machine.execAndc rs ra rb rc s
  | .td tos ra rb => Sys2Proof.Machine.execTd tos ra rb s
  | .mulhd rt ra rb rc => Sys2Proof.Machine.execMulhd rt ra rb rc s
  | .mulhw rt ra rb rc => Sys2Proof.Machine.execMulhw rt ra rb rc s
  | .lbzx rt ra rb => Sys2Proof.Machine.execLbzx rt ra rb s
  | .neg rt ra oe rc => Sys2Proof.Machine.execNeg rt ra oe rc s
  | .lbzux rt ra rb => Sys2Proof.Machine.execLbzux rt ra rb s
  | .popcntb rs ra => Sys2Proof.Machine.execPopcntb rs ra s
  | .nor rs ra rb rc => Sys2Proof.Machine.execNor rs ra rb rc s
  | .subfe rt ra rb oe rc => Sys2Proof.Machine.execSubfe rt ra rb oe rc s
  | .adde rt ra rb oe rc => Sys2Proof.Machine.execAdde rt ra rb oe rc s
  | .mtcrf rs fxm => Sys2Proof.Machine.execMtcrf rs fxm s
  | .mtocrf rs fxm => Sys2Proof.Machine.execMtocrf rs fxm s
  | .stdx rs ra rb => Sys2Proof.Machine.execStdx rs ra rb s
  | .stwx rs ra rb => Sys2Proof.Machine.execStwx rs ra rb s
  | .stdux rs ra rb => Sys2Proof.Machine.execStdux rs ra rb s
  | .stwux rs ra rb => Sys2Proof.Machine.execStwux rs ra rb s
  | .subfze rt ra oe rc => Sys2Proof.Machine.execSubfze rt ra oe rc s
  | .addze rt ra oe rc => Sys2Proof.Machine.execAddze rt ra oe rc s
  | .stbx rs ra rb => Sys2Proof.Machine.execStbx rs ra rb s
  | .subfme rt ra oe rc => Sys2Proof.Machine.execSubfme rt ra oe rc s
  | .mulld rt ra rb oe rc => Sys2Proof.Machine.execMulld rt ra rb oe rc s
  | .addme rt ra oe rc => Sys2Proof.Machine.execAddme rt ra oe rc s
  | .mullw rt ra rb oe rc => Sys2Proof.Machine.execMullw rt ra rb oe rc s
  | .stbux rs ra rb => Sys2Proof.Machine.execStbux rs ra rb s
  | .add rt ra rb oe rc => Sys2Proof.Machine.execAdd rt ra rb oe rc s
  | .lhzx rt ra rb => Sys2Proof.Machine.execLhzx rt ra rb s
  | .eqv rs ra rb rc => Sys2Proof.Machine.execEqv rs ra rb rc s
  | .lhzux rt ra rb => Sys2Proof.Machine.execLhzux rt ra rb s
  | .xor rs ra rb rc => Sys2Proof.Machine.execXor rs ra rb rc s
  | .mfspr rt spr => Sys2Proof.Machine.execMfspr rt spr s
  | .lwax rt ra rb => Sys2Proof.Machine.execLwax rt ra rb s
  | .lhax rt ra rb => Sys2Proof.Machine.execLhax rt ra rb s
  | .lwaux rt ra rb => Sys2Proof.Machine.execLwaux rt ra rb s
  | .lhaux rt ra rb => Sys2Proof.Machine.execLhaux rt ra rb s
  | .sthx rs ra rb => Sys2Proof.Machine.execSthx rs ra rb s
  | .orc rs ra rb rc => Sys2Proof.Machine.execOrc rs ra rb rc s
  | .sradi rs ra sh rc => Sys2Proof.Machine.execSradi rs ra sh rc s
  | .sthux rs ra rb => Sys2Proof.Machine.execSthux rs ra rb s
  | .or rs ra rb rc => Sys2Proof.Machine.execOr rs ra rb rc s
  | .divdu rt ra rb oe rc => Sys2Proof.Machine.execDivdu rt ra rb oe rc s
  | .divwu rt ra rb oe rc => Sys2Proof.Machine.execDivwu rt ra rb oe rc s
  | .mtspr rs spr => Sys2Proof.Machine.execMtspr rs spr s
  | .nand rs ra rb rc => Sys2Proof.Machine.execNand rs ra rb rc s
  | .divd rt ra rb oe rc => Sys2Proof.Machine.execDivd rt ra rb oe rc s
  | .divw rt ra rb oe rc => Sys2Proof.Machine.execDivw rt ra rb oe rc s
  | .mcrxr bf => Sys2Proof.Machine.execMcrxr bf s
  | .lswx rt ra rb => Sys2Proof.Machine.execLswx rt ra rb s
  | .lwbrx rt ra rb => Sys2Proof.Machine.execLwbrx rt ra rb s
  | .lfsx frt ra rb => Sys2Proof.Machine.execLfsx frt ra rb s
  | .srw rs ra rb rc => Sys2Proof.Machine.execSrw rs ra rb rc s
  | .srd rs ra rb rc => Sys2Proof.Machine.execSrd rs ra rb rc s
  | .lfsux frt ra rb => Sys2Proof.Machine.execLfsux frt ra rb s
  | .lswi rt ra nb => Sys2Proof.Machine.execLswi rt ra nb s
  | .lfdx frt ra rb => Sys2Proof.Machine.execLfdx frt ra rb s
  | .lfdux frt ra rb => Sys2Proof.Machine.execLfdux frt ra rb s
  | .stswx rs ra rb => Sys2Proof.Machine.execStswx rs ra rb s
  | .stwbrx rs ra rb => Sys2Proof.Machine.execStwbrx rs ra rb s
  | .stfsx frs ra rb => Sys2Proof.Machine.execStfsx frs ra rb s
  | .stfsux frs ra rb => Sys2Proof.Machine.execStfsux frs ra rb s
  | .stswi rs ra nb => Sys2Proof.Machine.execStswi rs ra nb s
  | .stfdx frs ra rb => Sys2Proof.Machine.execStfdx frs ra rb s
  | .stfdux frs ra rb => Sys2Proof.Machine.execStfdux frs ra rb s
  | .lhbrx rt ra rb => Sys2Proof.Machine.execLhbrx rt ra rb s
  | .sraw rs ra rb rc => Sys2Proof.Machine.execSraw rs ra rb rc s
  | .srad rs ra rb rc => Sys2Proof.Machine.execSrad rs ra rb rc s
  | .srawi rs ra sh rc => Sys2Proof.Machine.execSrawi rs ra sh rc s
  | .sthbrx rs ra rb => Sys2Proof.Machine.execSthbrx rs ra rb s
  | .extsh rs ra rc => Sys2Proof.Machine.execExtsh rs ra rc s
  | .extsb rs ra rc => Sys2Proof.Machine.execExtsb rs ra rc s
  | .stfiwx frs ra rb => Sys2Proof.Machine.execStfiwx frs ra rb s
  | .extsw rs ra rc => Sys2Proof.Machine.execExtsw rs ra rc s
  | .lwz rt ra d => Sys2Proof.Machine.execLwz rt ra d s
  | .lwzu rt ra d => Sys2Proof.Machine.execLwzu rt ra d s
  | .lbz rt ra d => Sys2Proof.Machine.execLbz rt ra d s
  | .lbzu rt ra d => Sys2Proof.Machine.execLbzu rt ra d s
  | .stw rs ra d => Sys2Proof.Machine.execStw rs ra d s
  | .stwu rs ra d => Sys2Proof.Machine.execStwu rs ra d s
  | .stb rs ra d => Sys2Proof.Machine.execStb rs ra d s
  | .stbu rs ra d => Sys2Proof.Machine.execStbu rs ra d s
  | .lhz rt ra d => Sys2Proof.Machine.execLhz rt ra d s
  | .lhzu rt ra d => Sys2Proof.Machine.execLhzu rt ra d s
  | .lha rt ra d => Sys2Proof.Machine.execLha rt ra d s
  | .lhau rt ra d => Sys2Proof.Machine.execLhau rt ra d s
  | .sth rs ra d => Sys2Proof.Machine.execSth rs ra d s
  | .sthu rs ra d => Sys2Proof.Machine.execSthu rs ra d s
  | .lmw rt ra d => Sys2Proof.Machine.execLmw rt ra d s
  | .stmw rs ra d => Sys2Proof.Machine.execStmw rs ra d s
  | .lfs frt ra d => Sys2Proof.Machine.execLfs frt ra d s
  | .lfsu frt ra d => Sys2Proof.Machine.execLfsu frt ra d s
  | .lfd frt ra d => Sys2Proof.Machine.execLfd frt ra d s
  | .lfdu frt ra d => Sys2Proof.Machine.execLfdu frt ra d s
  | .stfs frs ra d => Sys2Proof.Machine.execStfs frs ra d s
  | .stfsu frs ra d => Sys2Proof.Machine.execStfsu frs ra d s
  | .stfd frs ra d => Sys2Proof.Machine.execStfd frs ra d s
  | .stfdu frs ra d => Sys2Proof.Machine.execStfdu frs ra d s
  | .ld rt ra ds => Sys2Proof.Machine.execLd rt ra ds s
  | .ldu rt ra ds => Sys2Proof.Machine.execLdu rt ra ds s
  | .lwa rt ra ds => Sys2Proof.Machine.execLwa rt ra ds s
  | .fdivs frt fra frb rc => Sys2Proof.Machine.execFdivs frt fra frb rc s
  | .fsubs frt fra frb rc => Sys2Proof.Machine.execFsubs frt fra frb rc s
  | .fadds frt fra frb rc => Sys2Proof.Machine.execFadds frt fra frb rc s
  | .fsqrts frt frb rc => Sys2Proof.Machine.execFsqrts frt frb rc s
  | .fres frt frb rc => Sys2Proof.Machine.execFres frt frb rc s
  | .fmuls frt fra frc rc => Sys2Proof.Machine.execFmuls frt fra frc rc s
  | .frsqrtes frt frb rc => Sys2Proof.Machine.execFrsqrtes frt frb rc s
  | .fmsubs frt fra frb frc rc => Sys2Proof.Machine.execFmsubs frt fra frb frc rc s
  | .fmadds frt fra frb frc rc => Sys2Proof.Machine.execFmadds frt fra frb frc rc s
  | .fnmsubs frt fra frb frc rc => Sys2Proof.Machine.execFnmsubs frt fra frb frc rc s
  | .fnmadds frt fra frb frc rc => Sys2Proof.Machine.execFnmadds frt fra frb frc rc s
  | .std rs ra ds => Sys2Proof.Machine.execStd rs ra ds s
  | .stdu rs ra ds => Sys2Proof.Machine.execStdu rs ra ds s
  | .fcmpu bf fra frb => Sys2Proof.Machine.execFcmpu bf fra frb s
  | .frsp frt frb rc => Sys2Proof.Machine.execFrsp frt frb rc s
  | .fctiw frt frb rc => Sys2Proof.Machine.execFctiw frt frb rc s
  | .fctiwz frt frb rc => Sys2Proof.Machine.execFctiwz frt frb rc s
  | .fdiv frt fra frb rc => Sys2Proof.Machine.execFdiv frt fra frb rc s
  | .fsub frt fra frb rc => Sys2Proof.Machine.execFsub frt fra frb rc s
  | .fadd frt fra frb rc => Sys2Proof.Machine.execFadd frt fra frb rc s
  | .fsqrt frt frb rc => Sys2Proof.Machine.execFsqrt frt frb rc s
  | .fsel frt fra frb frc rc => Sys2Proof.Machine.execFsel frt fra frb frc rc s
  | .fre frt frb rc => Sys2Proof.Machine.execFre frt frb rc s
  | .fmul frt fra frc rc => Sys2Proof.Machine.execFmul frt fra frc rc s
  | .frsqrte frt frb rc => Sys2Proof.Machine.execFrsqrte frt frb rc s
  | .fmsub frt fra frb frc rc => Sys2Proof.Machine.execFmsub frt fra frb frc rc s
  | .fmadd frt fra frb frc rc => Sys2Proof.Machine.execFmadd frt fra frb frc rc s
  | .fnmsub frt fra frb frc rc => Sys2Proof.Machine.execFnmsub frt fra frb frc rc s
  | .fnmadd frt fra frb frc rc => Sys2Proof.Machine.execFnmadd frt fra frb frc rc s
  | .fcmpo bf fra frb => Sys2Proof.Machine.execFcmpo bf fra frb s
  | .mtfsb1 bt rc => Sys2Proof.Machine.execMtfsb1 bt rc s
  | .fneg frt frb rc => Sys2Proof.Machine.execFneg frt frb rc s
  | .mcrfs bf bfa => Sys2Proof.Machine.execMcrfs bf bfa s
  | .mtfsb0 bt rc => Sys2Proof.Machine.execMtfsb0 bt rc s
  | .fmr frt frb rc => Sys2Proof.Machine.execFmr frt frb rc s
  | .mtfsfi bf u rc => Sys2Proof.Machine.execMtfsfi bf u rc s
  | .fnabs frt frb rc => Sys2Proof.Machine.execFnabs frt frb rc s
  | .fabs frt frb rc => Sys2Proof.Machine.execFabs frt frb rc s
  | .mffs frt rc => Sys2Proof.Machine.execMffs frt rc s
  | .mtfsf flm frb rc => Sys2Proof.Machine.execMtfsf flm frb rc s
  | .fctid frt frb rc => Sys2Proof.Machine.execFctid frt frb rc s
  | .fctidz frt frb rc => Sys2Proof.Machine.execFctidz frt frb rc s
  | .fcfid frt frb rc => Sys2Proof.Machine.execFcfid frt frb rc s

end Sys2Proof.Machine
end

