-- ==== Sys2Proof/Machine/Step.lean ====
section
/-!
DEFINITION. One step of the machine (spec/60_exceptions.md R725, 40_branch.md R200).
-/
namespace Sys2Proof.Machine

/-- What a step does with the word it has fetched: the instruction's meaning, IllegalInstruction, or a refusal for a
word of Book II or III (R725 step 2, 30_encoding.md R164). -/
def stepWord (w : Word) (s : State) : Host.Outcome State Fault Refusal :=
  match decode w with
  | .ok i => exec i (s.setInsn w)
  | .error (.otherBook mnemonic) => .refused (.otherBook mnemonic)
  | .error _ => raiseIllegal (s.setInsn w)

/-- One step: after an event the run has ended (00_scope.md R36); an ill-formed state is refused
(70_reset_and_hazards.md R771); otherwise fetch (20_memory.md R97, R121), decode, execute (60_exceptions.md R725). -/
def step (s : State) : Host.Outcome State Fault Refusal :=
  if s.event.isSome then .fault .runEnded
  else if !s.wellFormed then .refused .illFormedState
  else if !s.available .fetch s.pc 4 then raise (.instructionStorage s.pc) s.inRun
  else if s.fetchModified then .refused .modifiedCode
  else stepWord s.fetchWord s.inRun

/-- `s` with the instruction whose bits are `w` stored where `step` fetches next.  `nbits` is 32 for every row. -/
def State.withFetchWord (s : State) (nbits w : Nat) : State :=
  s.placeWord (BitVec.ofNat 32 (w % 2 ^ nbits))

end Sys2Proof.Machine
end

