-- ==== Sys2Proof/Safety.lean ====
section
/-!
DEFINITION. The terms in which statements speak of one instruction and of runs: what is left alone, what an operand in
storage is, what every step keeps.
-/
namespace Sys2Proof.Machine

/-! ## Runs -/

/-- A run has ended (spec/00_scope.md R36). -/
def State.ended (s : State) : Prop := s.event.isSome = true

/-- `t` is `s` but for the event: what every event but FloatingPointEnabled leaves (spec/60_exceptions.md R711). -/
def State.SameButEvent (s t : State) : Prop := t = { s with event := t.event }

/-- VX and FEX are what spec/10_state.md R64 and R65 say of the other bits. -/
def FpscrSummaries (f : Word) : Prop :=
  bitAt f 2 = (bitAt f 7 || bitAt f 8 || bitAt f 9 || bitAt f 10 || bitAt f 11 || bitAt f 12 ||
    bitAt f 21 || bitAt f 22 || bitAt f 23) ∧
  bitAt f 1 = ((bitAt f 2 && bitAt f 24) || (bitAt f 3 && bitAt f 25) || (bitAt f 4 && bitAt f 26) ||
    (bitAt f 5 && bitAt f 27) || (bitAt f 6 && bitAt f 28))

/-- What every step keeps: storage in canonical form, pc word-aligned and truncated (10_state.md R42), the FPSCR
summaries (R64, R65), no pending enabled exception before an instruction (47_fp_model.md R534), Little-Endian mode only
where the facility is present, nothing stored to before the run begins (70_reset_and_hazards.md R771). -/
structure State.Inv (s : State) : Prop where
  memory    : s.mem.wf = true
  stored    : addrsWf s.stored = true
  pcAligned : s.pc = s.iea s.pc
  summaries : FpscrSummaries s.fpscr
  noPending : s.event = none → (bitAt s.fpscr 1 && s.fpTrapsOn) = false
  order     : s.env.le = true → s.env.hasLittleEndian = true
  fresh     : s.begun = false → s.stored = []

/-! ## Frames -/

/-- Every byte of storage reads as before. -/
def State.SameBytes (s t : State) : Prop := ∀ a : DWord, t.byteAt a = s.byteAt a

/-- Every GPR but `r` holds what it held. -/
def State.OtherGprs (s t : State) (r : RegNum) : Prop := ∀ q, q ≠ r → t.gprOf q = s.gprOf q

/-- Every FPR but `r` holds what it held. -/
def State.OtherFprs (s t : State) (r : RegNum) : Prop :=
  ∀ q, q ≠ r → t.fprOf q = s.fprOf q ∧ t.singleOf q = s.singleOf q

/-- Every CR field but `n` holds what it held. -/
def State.OtherCrFields (s t : State) (n : BitVec 3) : Prop := ∀ m, m ≠ n → t.crField m = s.crField m

/-- The bits of a register outside `mask` are unchanged. -/
def SameOutside {w : Nat} (mask x y : BitVec w) : Prop := y &&& ~~~mask = x &&& ~~~mask

/-- The part of a result that CR Field 0 looks at: all of it, or in 32-bit mode the low word (10_state.md R47). -/
def State.signedView (s : State) (v : DWord) : Int := if s.env.mode64 then v.toInt else (lowWord v).toInt

/-- CR Field 0 records `v` if `rc`, and the rest of CR is unchanged (10_state.md R47). -/
def State.Recorded (s t : State) (rc : Bool) (v : DWord) : Prop :=
  if rc then
    bitAt t.cr 0 = decide (s.signedView v < 0) ∧ bitAt t.cr 1 = decide (0 < s.signedView v) ∧
      bitAt t.cr 2 = decide (s.signedView v = 0) ∧ bitAt t.cr 3 = t.so ∧ s.OtherCrFields t 0
  else t.cr = s.cr

/-- A fixed-point instruction with target `r` went on to the next one and changed nothing but GPR `r`, CR and XER (and
the count of draws). -/
def State.FixedPoint (s t : State) (r : RegNum) : Prop :=
  s.OtherGprs t r ∧ s.SameBytes t ∧ t.pc = s.nextPc ∧
    t = { s with gpr := t.gpr, cr := t.cr, xer := t.xer, pc := t.pc, undef := t.undef }

/-- The instruction completes: `v` in GPR `r`, CR Field 0 if `rc`, nothing else. -/
def WritesGpr (res : Res) (s : State) (r : RegNum) (v : DWord) (rc : Bool) : Prop :=
  ∃ t, res = .next t ∧ t.gprOf r = v ∧ s.Recorded t rc v ∧ t.xer = s.xer ∧ t.undef = s.undef ∧ s.FixedPoint t r

/-- As `WritesGpr`, the result given bit by bit (the spec's numbering). -/
def WritesBits (res : Res) (s : State) (r : RegNum) (f : Nat → Bool) (rc : Bool) : Prop :=
  ∃ t, res = .next t ∧ (∀ i, i < 64 → bitAt (t.gprOf r) i = f i) ∧ s.Recorded t rc (t.gprOf r) ∧ t.xer = s.xer ∧
    t.undef = s.undef ∧ s.FixedPoint t r

/-- Position `i` is under `MASK(mb, me)` (45_fx_rotate_shift.md). -/
def inMask (mb me i : Nat) : Bool :=
  if mb ≤ me then decide (mb ≤ i ∧ i ≤ me) else decide (mb ≤ i ∨ i ≤ me)

/-- Bit `i` of `ROTL64(x, n)`. -/
def rotatedBit (x : DWord) (n i : Nat) : Bool := bitAt x ((i + n) % 64)

/-- Bit `i` of `ROTL32(x[32:63], n)`: the rotated word in both halves. -/
def rotatedWordBit (x : DWord) (n i : Nat) : Bool := bitAt x (32 + (i + n) % 32)

/-! ## Sums -/

/-- `a + b + cin` is out of the signed range of the mode's width (10_state.md R56). -/
def State.sumOverflows (s : State) (a b : DWord) (cin : Nat) : Bool :=
  if s.env.mode64 then
    decide (a.toInt + b.toInt + cin < -2 ^ 63) || decide (2 ^ 63 ≤ a.toInt + b.toInt + cin)
  else
    decide ((lowWord a).toInt + (lowWord b).toInt + cin < -2 ^ 31) ||
      decide (2 ^ 31 ≤ (lowWord a).toInt + (lowWord b).toInt + cin)

/-- `a + b + cin` carries out of the mode's width (10_state.md R55). -/
def State.sumCarries (s : State) (a b : DWord) (cin : Nat) : Bool :=
  if s.env.mode64 then decide (2 ^ 64 ≤ a.toNat + b.toNat + cin)
  else decide (2 ^ 32 ≤ a.toNat % 2 ^ 32 + b.toNat % 2 ^ 32 + cin)

/-- SO and OV after an instruction whose OE is `oe` and whose overflow condition is `ov` (10_state.md R54). -/
def State.OverflowNoted (s t : State) (oe ov : Bool) : Prop :=
  t.ov = (if oe then ov else s.ov) ∧ t.so = (s.so || (oe && ov))

/-- The instruction completes with `a + b + cin` in RT, CA if `ca`, OV and SO if `oe`, CR Field 0 if `rc`. -/
def AddsInto (res : Res) (s : State) (rt : RegNum) (a b : DWord) (cin : Nat) (ca oe rc : Bool) : Prop :=
  ∃ t, res = .next t ∧ (t.gprOf rt).toNat = (a.toNat + b.toNat + cin) % 2 ^ 64 ∧
    t.ca = (if ca then s.sumCarries a b cin else s.ca) ∧ s.OverflowNoted t oe (s.sumOverflows a b cin) ∧
    SameOutside 0xE0000000 s.xer t.xer ∧ s.Recorded t rc (t.gprOf rt) ∧ t.undef = s.undef ∧ s.FixedPoint t rt

/-! ## Storage operands -/

/-- The value of `n` bytes from `ea` up, the first most significant (20_memory.md R92). -/
def State.bigEndianValue (s : State) (ea : DWord) : Nat → Nat
  | 0 => 0
  | n + 1 => (s.byteAt ea).toNat * 256 ^ n + s.bigEndianValue (ea + 1) n

/-- The value of `n` bytes from `ea` up, the first least significant (20_memory.md R106). -/
def State.littleEndianValue (s : State) (ea : DWord) : Nat → Nat
  | 0 => 0
  | n + 1 => (s.byteAt ea).toNat + 256 * s.littleEndianValue (ea + 1) n

/-- The value of the operand of `n` bytes at `ea` in the byte order in effect. -/
def State.operandValue (s : State) (ea : DWord) (n : Nat) : Nat :=
  if s.env.le then s.littleEndianValue ea n else s.bigEndianValue ea n

/-- The signed value of an `n`-byte operand. -/
def signedValue (n v : Nat) : Int := if 2 ^ (8 * n - 1) ≤ v then (v : Int) - 2 ^ (8 * n) else v

/-- A single-register access of `n` bytes at `ea` meets neither check (20_memory.md R97). -/
def State.Accessible (s : State) (kind : AccessKind) (ea : DWord) (n : Nat) : Prop :=
  s.alignFault (s.trunc ea) n = false ∧ s.available kind ea n = true

/-- The byte at `a` is none of the `n` bytes from `ea` up. -/
def State.Outside (s : State) (ea : DWord) (n : Nat) (a : DWord) : Prop :=
  ∀ k, k < n → s.byteAddr a ≠ s.byteAddr (ea + BitVec.ofNat 64 k)

/-- Storage and the set of stored-to bytes changed at the `n` bytes from `ea` up and nowhere else. -/
def State.StoredAt (s t : State) (ea : DWord) (n : Nat) : Prop :=
  (∀ a, s.Outside ea n a → t.byteAt a = s.byteAt a) ∧
    ∀ x, x ∈ t.stored ↔ x ∈ s.stored ∨ ∃ k, k < n ∧ x = s.byteAddr (ea + BitVec.ofNat 64 k)

/-- A load completes: GPR `rt` holds `v`, and RA takes the effective address if `upd`. -/
def LoadsGpr (res : Res) (s : State) (rt : RegNum) (v : Int) (upd : Option (RegNum × DWord)) : Prop :=
  ∃ t, res = .next t ∧ (t.gprOf rt).toNat = (v % 2 ^ 64).toNat ∧
    (∀ q, q ≠ rt → t.gprOf q = match upd with
      | some (ra, ea) => if q = ra then ea else s.gprOf q
      | none => s.gprOf q) ∧
    s.SameBytes t ∧ t.pc = s.nextPc ∧ t = { s with gpr := t.gpr, pc := t.pc }

/-- A store completes: the operand of `n` bytes at `ea` is the low-order `n` bytes of `v`, and RA takes the effective
address if `upd`. -/
def StoresOperand (res : Res) (s : State) (ea : DWord) (n : Nat) (v : Nat) (upd : Option RegNum) : Prop :=
  ∃ t, res = .next t ∧ t.operandValue ea n = v % 256 ^ n ∧ s.StoredAt t ea n ∧
    (∀ q, t.gprOf q = match upd with
      | some ra => if q = ra then ea else s.gprOf q
      | none => s.gprOf q) ∧
    t.pc = s.nextPc ∧ t = { s with mem := t.mem, stored := t.stored, gpr := t.gpr, pc := t.pc, undef := t.undef }

/-- The event alone: the instruction raises and changes nothing (60_exceptions.md R711). -/
def Raises (res : Res) (s : State) (e : Event) : Prop := res = .next { s with event := some e }

/-- IllegalInstruction at the current instruction (60_exceptions.md R715). -/
def RaisesIllegal (res : Res) (s : State) : Prop := Raises res s (.illegalInstruction s.pc s.insn)

/-! ## Floating point -/

/-- `x` and `y` are the same number. -/
def Dyadic.same (x y : Dyadic) : Prop := x.le y = true ∧ y.le x = true

/-- `a ≤ b` of two non-NaN patterns, by value (47_fp_model.md R508, R509, 48_fp_instructions.md R650). -/
def fpLessEq (a b : DWord) : Bool :=
  if isInf a then fpSign a || (isInf b && !fpSign b)
  else if isInf b then !fpSign b
  else (fpVal a).le (fpVal b)

/-- The computational floating-point instructions have their IEEE meaning (10_state.md R71). -/
def State.Ieee (s : State) : Prop := (s.env.hasNiMode && bitAt s.fpscr 29) = false

/-- CR Field 1 is FPSCR[0:3] if `rc`, and the rest of CR is unchanged (10_state.md R49). -/
def State.Recorded1 (s t : State) (rc : Bool) : Prop :=
  if rc then t.crField 1 = fld t.fpscr 0 4 ∧ s.OtherCrFields t 1 else t.cr = s.cr

/-- A floating-point instruction with target `frt` went on to the next one and changed nothing but that FPR, FPSCR and
CR Field 1 (and the count of draws), storage included; the event is `e`. -/
def State.FloatingPoint (s t : State) (frt : RegNum) (rc : Bool) (e : Option Event) : Prop :=
  s.OtherFprs t frt ∧ s.Recorded1 t rc ∧ s.SameBytes t ∧ t.pc = s.nextPc ∧ t.event = e ∧
    t = { s with fpr := t.fpr, single := t.single, fpscr := t.fpscr, cr := t.cr, pc := t.pc, undef := t.undef,
                 event := t.event }

/-- The event with which an enabled exception of the current instruction ends the run, unless exceptions are ignored
(47_fp_model.md R534).  That the imprecise modes end it at this very instruction is the spec's decision D9 (log entry 14). -/
def State.enabledEvent (s : State) (caused : Bool) : Option Event :=
  if caused && s.fpTrapsOn then some (.floatingPointEnabled s.pc s.insn) else s.event

/-- The instruction delivers `x` exactly: FR and FI are 0, FPRF is its class, no exception bit changes (47_fp_model.md
R554, R555). -/
def DeliversExactly (fmt : FpFormat) (res : Res) (s : State) (frt : RegNum) (rc : Bool) (x : DWord) : Prop :=
  ∃ t, res = .next t ∧ t.fprOf frt = x ∧ t.singleOf frt = (fmt.p == 24) ∧
    bitAt t.fpscr 13 = false ∧ bitAt t.fpscr 14 = false ∧ fld t.fpscr 15 5 = fpClass fmt x ∧
    SameOutside 0x7F000 s.fpscr t.fpscr ∧ s.FloatingPoint t frt rc s.event

/-- A normalized number of the format (47_fp_model.md R507, R512). -/
def NormalIn (fmt : FpFormat) (x : DWord) : Prop :=
  fmt.minExp ≤ fpExp x ∧ fpExp x ≤ fpExp fmt.maxFin ∧ (fmt.p = 24 → repSingle x = true)

/-- `s` with the FPSCR bits of `mask` set, FX if that is a change, and the summaries. -/
def SetsException (f g mask : Word) : Prop :=
  g &&& mask = mask ∧ FpscrSummaries g ∧
    bitAt g 0 = (bitAt f 0 || (f &&& mask != mask)) ∧ SameOutside (mask ||| 0xE0000000 ||| 0x7F000) f g

/-- An Invalid Operation Exception of an arithmetic instruction or frsp, `vx` being its bits: disabled, it delivers the Quiet
NaN `nan`; enabled, FRT and FPRF keep what they held; FR = FI = 0 in both (47_fp_model.md R541, R542). -/
def InvalidOperation (fmt : FpFormat) (res : Res) (s : State) (frt : RegNum) (rc : Bool) (vx : Word) (nan : DWord) :
    Prop :=
  ∃ t, res = .next t ∧ SetsException s.fpscr t.fpscr vx ∧
    bitAt t.fpscr 13 = false ∧ bitAt t.fpscr 14 = false ∧
    (bitAt s.fpscr 24 = false → t.fprOf frt = nan ∧ t.singleOf frt = (fmt.p == 24) ∧ fld t.fpscr 15 5 = 0b10001) ∧
    (bitAt s.fpscr 24 = true → t.fprOf frt = s.fprOf frt ∧ t.singleOf frt = s.singleOf frt ∧
      fld t.fpscr 15 5 = fld s.fpscr 15 5) ∧
    s.FloatingPoint t frt rc (s.enabledEvent (bitAt s.fpscr 24))

/-! ## Rounding, over the real numbers -/

/-- `Val(x)` of a finite pattern (47_fp_model.md R508). -/
def fpRat (x : DWord) : ℚ := (fpVal x).num * (2 : ℚ) ^ (fpVal x).exp

/-- `r` is `RoundQ(s, v, q, mode)`: the magnitude `v` truncated to a multiple of `2^q`, incremented as the mode says
(47_fp_model.md R520, R523). -/
def RoundsAt (s : Bool) (v : ℝ) (q : ℤ) (mode : BitVec 2) (r : Rounded) : Prop :=
  ∃ (n : ℕ) (rem : ℝ), v = n * (2 : ℝ) ^ q + rem ∧ 0 ≤ rem ∧ rem < (2 : ℝ) ^ q ∧
    (r.inexact = true ↔ rem ≠ 0) ∧
    (r.inc = true ↔
      (mode = 0 ∧ ((2 : ℝ) ^ q < 2 * rem ∨ (2 * rem = (2 : ℝ) ^ q ∧ n % 2 = 1))) ∨
      (mode = 2 ∧ s = false ∧ rem ≠ 0) ∨ (mode = 3 ∧ s = true ∧ rem ≠ 0)) ∧
    r.units = if r.inc then n + 1 else n

/-- What the rounding of a nonzero result leaves: the pattern delivered, the exception bits set, FR where it is defined, FI,
FPRF, and whether an enabled exception occurred. -/
structure RoundedOutcome where
  value  : DWord
  bits   : Word
  fr     : Option Bool
  fi     : Bool
  fprf   : BitVec 5
  caused : Bool
deriving DecidableEq, Repr

/-- `x` is a finite pattern of sign `sg` with `abs(Val(x)) = units * 2^q` (`PackD`, 47_fp_model.md R556). -/
def HasMagnitude (x : DWord) (sg : Bool) (units : ℕ) (q : ℤ) : Prop :=
  isNaN x = false ∧ isInf x = false ∧ fpSign x = sg ∧ |fpRat x| = units * (2 : ℚ) ^ q

/-- The result of a disabled Overflow, by rounding mode and sign (47_fp_model.md R548). -/
def overflowTable (fmt : FpFormat) (sg : Bool) (mode : BitVec 2) : DWord :=
  let largest := if sg then fpNegated fmt.maxFin else fmt.maxFin
  if mode = 0 then fpInf sg
  else if mode = 1 then largest
  else if mode = 2 then (if sg then largest else fpInf sg)
  else (if sg then fpInf sg else largest)

/-- `o` is what `RoundResult` makes of the exact result `y`, with the FPSCR `f` before the instruction: Tiny results are
denormalized or, with UE = 1, adjusted; a result that rounds past the format's range overflows, adjusted with OE = 1; the
others are rounded to the precision (47_fp_model.md R546 to R554, R556). -/
def RoundedAs (fmt : FpFormat) (y : ℝ) (f : Word) (o : RoundedOutcome) : Prop :=
  ∃ (sg : Bool) (e : ℤ) (r : Rounded),
    (sg = true ↔ y < 0) ∧ (2 : ℝ) ^ e ≤ |y| ∧ |y| < (2 : ℝ) ^ (e + 1) ∧
    let q : ℤ := if e < fmt.emin ∧ bitAt f 26 = false then fmt.emin - (fmt.p - 1) else e - (fmt.p - 1)
    let xx : Word := if r.inexact then fpBit 6 else 0
    let overflows : Prop := fmt.emin ≤ e ∧ (2 : ℝ) ^ (fmt.emax + 1) ≤ r.units * (2 : ℝ) ^ q
    let rounded (adjust : ℤ) (bits : Word) : Prop :=
      HasMagnitude o.value sg r.units (q + adjust) ∧ o.bits = bits ||| xx ∧ o.fr = some r.inc ∧ o.fi = r.inexact ∧
        o.fprf = if adjust = 0 then fpClass fmt o.value else normalClass sg
    RoundsAt sg |y| q (fld f 30 2) r ∧
    (e < fmt.emin → bitAt f 26 = false →
      rounded 0 (if r.inexact then fpBit 4 else 0) ∧ o.caused = (r.inexact && bitAt f 28)) ∧
    (e < fmt.emin → bitAt f 26 = true → rounded fmt.adj (fpBit 4) ∧ o.caused = true) ∧
    (overflows → bitAt f 25 = true → rounded (-fmt.adj) (fpBit 3) ∧ o.caused = true) ∧
    (overflows → bitAt f 25 = false → o.value = overflowTable fmt sg (fld f 30 2) ∧ o.bits = fpBit 3 ||| fpBit 6 ∧
      o.fr = none ∧ o.fi = true ∧ o.fprf = fpClass fmt o.value ∧ o.caused = bitAt f 28) ∧
    (fmt.emin ≤ e → ¬overflows → rounded 0 0 ∧ o.caused = (r.inexact && bitAt f 28))

/-- The instruction delivers the exact result `y` rounded, negated if `neg` (47_fp_model.md R555, R556,
48_fp_instructions.md R630, R631). -/
def DeliversRounded (fmt : FpFormat) (neg : Bool) (res : Res) (s : State) (frt : RegNum) (rc : Bool) (y : ℝ) : Prop :=
  ∃ t o, res = .next t ∧ RoundedAs fmt y s.fpscr o ∧
    t.fprOf frt = (if neg then fpNegated o.value else o.value) ∧ t.singleOf frt = (fmt.p == 24) ∧
    SetsException s.fpscr t.fpscr o.bits ∧ (∀ b, o.fr = some b → bitAt t.fpscr 13 = b) ∧ bitAt t.fpscr 14 = o.fi ∧
    fld t.fpscr 15 5 = (if neg then negClass o.fprf else o.fprf) ∧
    s.FloatingPoint t frt rc (s.enabledEvent o.caused)

/-- `abs(1/x) * (1 - 1/k) < 2^Emin`: the estimate of the reciprocal may underflow (49_optional.md R681, k = 256). -/
def recipTiny (fmt : FpFormat) (b : DWord) : Bool := decide (|1 / fpRat b| * (255 / 256) < (2 : ℚ) ^ fmt.emin)

/-- `abs(1/x) * (1 + 1/k)` exceeds the largest finite number: the estimate of the reciprocal may overflow (R681). -/
def recipHuge (fmt : FpFormat) (b : DWord) : Bool := decide (fpRat fmt.maxFin < |1 / fpRat b| * (257 / 256))

/-- The contract of an estimate `r` of the reciprocal of `b`, a nonzero number (49_optional.md R681). -/
def RecipEstimate (fmt : FpFormat) (r b : DWord) : Prop :=
  (isNumber r = true ∧ |fpRat r - 1 / fpRat b| ≤ |1 / fpRat b| / 256) ∨
    ((recipTiny fmt b = true ∨ recipHuge fmt b = true) ∧ (isInf r = true ∨ isZero r = true ∨ fpExp r < fmt.minExp))

/-- The contract of an estimate `r` of the reciprocal square root of `b`, a positive number (49_optional.md R681, k = 32). -/
def RsqrtEstimate (r b : DWord) : Prop :=
  isNumber r = true ∧ |(fpRat r : ℝ) - 1 / √(fpRat b : ℝ)| ≤ 1 / √(fpRat b : ℝ) / 32

end Sys2Proof.Machine
end

