-- ==== Sys2Proof/WellFormed.lean ====
section
/-!
DEFINITION. Well-formed instructions: those that are no invalid form by their encoding alone
(spec/30_encoding.md R166).  An instruction that is not well formed still decodes; executing it raises
IllegalInstruction (92_eei_decisions.md D4).  The one range that also depends on a register, lswx's, is in
the meaning of lswx (42_fx_multiple_string.md R312).
-/
namespace Sys2Proof

open Machine

/-- The instruction is no invalid form (spec/30_encoding.md R166; 46_fx_sysreg.md R483 for the SPR numbers). -/
def WellFormed (i : Instr) : Bool :=
  match i with
  | .tdi _ _ _ => true
  | .twi _ _ _ => true
  | .mulli _ _ _ => true
  | .subfic _ _ _ => true
  | .cmpli _ _ _ _ => true
  | .cmpi _ _ _ _ => true
  | .addic _ _ _ => true
  | .addicRec _ _ _ => true
  | .addi _ _ _ => true
  | .addis _ _ _ => true
  | .bc _ _ _ _ _ => true
  | .sc _ bit30 => bit30
  | .b _ _ _ => true
  | .mcrf _ _ => true
  | .bclr _ _ _ _ => true
  | .crnor _ _ _ => true
  | .crandc _ _ _ => true
  | .crxor _ _ _ => true
  | .crnand _ _ _ => true
  | .crand _ _ _ => true
  | .creqv _ _ _ => true
  | .crorc _ _ _ => true
  | .cror _ _ _ => true
  | .bcctr bo _ _ _ => !bcctrInvalid bo
  | .rlwimi _ _ _ _ _ _ => true
  | .rlwinm _ _ _ _ _ _ => true
  | .rlwnm _ _ _ _ _ _ => true
  | .ori _ _ _ => true
  | .oris _ _ _ => true
  | .xori _ _ _ => true
  | .xoris _ _ _ => true
  | .andiRec _ _ _ => true
  | .andisRec _ _ _ => true
  | .rldicl _ _ _ _ _ => true
  | .rldicr _ _ _ _ _ => true
  | .rldic _ _ _ _ _ => true
  | .rldimi _ _ _ _ _ => true
  | .rldcl _ _ _ _ _ => true
  | .rldcr _ _ _ _ _ => true
  | .cmp _ _ _ _ => true
  | .tw _ _ _ => true
  | .subfc _ _ _ _ _ => true
  | .mulhdu _ _ _ _ => true
  | .addc _ _ _ _ _ => true
  | .mulhwu _ _ _ _ => true
  | .mfcr _ => true
  | .mfocrf _ _ => true
  | .ldx _ _ _ => true
  | .lwzx _ _ _ => true
  | .slw _ _ _ _ => true
  | .cntlzw _ _ _ => true
  | .sld _ _ _ _ => true
  | .and _ _ _ _ => true
  | .cmpl _ _ _ _ => true
  | .subf _ _ _ _ _ => true
  | .ldux rt ra _ => !loadUpdateInvalid rt ra
  | .lwzux rt ra _ => !loadUpdateInvalid rt ra
  | .cntlzd _ _ _ => true
  | .andc _ _ _ _ => true
  | .td _ _ _ => true
  | .mulhd _ _ _ _ => true
  | .mulhw _ _ _ _ => true
  | .lbzx _ _ _ => true
  | .neg _ _ _ _ => true
  | .lbzux rt ra _ => !loadUpdateInvalid rt ra
  | .popcntb _ _ => true
  | .nor _ _ _ _ => true
  | .subfe _ _ _ _ _ => true
  | .adde _ _ _ _ _ => true
  | .mtcrf _ _ => true
  | .mtocrf _ _ => true
  | .stdx _ _ _ => true
  | .stwx _ _ _ => true
  | .stdux _ ra _ => !storeUpdateInvalid ra
  | .stwux _ ra _ => !storeUpdateInvalid ra
  | .subfze _ _ _ _ => true
  | .addze _ _ _ _ => true
  | .stbx _ _ _ => true
  | .subfme _ _ _ _ => true
  | .mulld _ _ _ _ _ => true
  | .addme _ _ _ _ => true
  | .mullw _ _ _ _ _ => true
  | .stbux _ ra _ => !storeUpdateInvalid ra
  | .add _ _ _ _ _ => true
  | .lhzx _ _ _ => true
  | .eqv _ _ _ _ => true
  | .lhzux rt ra _ => !loadUpdateInvalid rt ra
  | .xor _ _ _ _ => true
  | .mfspr _ spr => sprDefined spr
  | .lwax _ _ _ => true
  | .lhax _ _ _ => true
  | .lwaux rt ra _ => !loadUpdateInvalid rt ra
  | .lhaux rt ra _ => !loadUpdateInvalid rt ra
  | .sthx _ _ _ => true
  | .orc _ _ _ _ => true
  | .sradi _ _ _ _ => true
  | .sthux _ ra _ => !storeUpdateInvalid ra
  | .or _ _ _ _ => true
  | .divdu _ _ _ _ _ => true
  | .divwu _ _ _ _ _ => true
  | .mtspr _ spr => sprDefined spr
  | .nand _ _ _ _ => true
  | .divd _ _ _ _ _ => true
  | .divw _ _ _ _ _ => true
  | .mcrxr _ => true
  | .lswx rt ra rb => !lswxFormInvalid rt ra rb
  | .lwbrx _ _ _ => true
  | .lfsx _ _ _ => true
  | .srw _ _ _ _ => true
  | .srd _ _ _ _ => true
  | .lfsux _ ra _ => !storeUpdateInvalid ra
  | .lswi rt ra nb => !stringRangeInvalid rt ra (nbBytes nb)
  | .lfdx _ _ _ => true
  | .lfdux _ ra _ => !storeUpdateInvalid ra
  | .stswx _ _ _ => true
  | .stwbrx _ _ _ => true
  | .stfsx _ _ _ => true
  | .stfsux _ ra _ => !storeUpdateInvalid ra
  | .stswi _ _ _ => true
  | .stfdx _ _ _ => true
  | .stfdux _ ra _ => !storeUpdateInvalid ra
  | .lhbrx _ _ _ => true
  | .sraw _ _ _ _ => true
  | .srad _ _ _ _ => true
  | .srawi _ _ _ _ => true
  | .sthbrx _ _ _ => true
  | .extsh _ _ _ => true
  | .extsb _ _ _ => true
  | .stfiwx _ _ _ => true
  | .extsw _ _ _ => true
  | .lwz _ _ _ => true
  | .lwzu rt ra _ => !loadUpdateInvalid rt ra
  | .lbz _ _ _ => true
  | .lbzu rt ra _ => !loadUpdateInvalid rt ra
  | .stw _ _ _ => true
  | .stwu _ ra _ => !storeUpdateInvalid ra
  | .stb _ _ _ => true
  | .stbu _ ra _ => !storeUpdateInvalid ra
  | .lhz _ _ _ => true
  | .lhzu rt ra _ => !loadUpdateInvalid rt ra
  | .lha _ _ _ => true
  | .lhau rt ra _ => !loadUpdateInvalid rt ra
  | .sth _ _ _ => true
  | .sthu _ ra _ => !storeUpdateInvalid ra
  | .lmw rt ra _ => !lmwInvalid rt ra
  | .stmw _ _ _ => true
  | .lfs _ _ _ => true
  | .lfsu _ ra _ => !storeUpdateInvalid ra
  | .lfd _ _ _ => true
  | .lfdu _ ra _ => !storeUpdateInvalid ra
  | .stfs _ _ _ => true
  | .stfsu _ ra _ => !storeUpdateInvalid ra
  | .stfd _ _ _ => true
  | .stfdu _ ra _ => !storeUpdateInvalid ra
  | .ld _ _ _ => true
  | .ldu rt ra _ => !loadUpdateInvalid rt ra
  | .lwa _ _ _ => true
  | .fdivs _ _ _ _ => true
  | .fsubs _ _ _ _ => true
  | .fadds _ _ _ _ => true
  | .fsqrts _ _ _ => true
  | .fres _ _ _ => true
  | .fmuls _ _ _ _ => true
  | .frsqrtes _ _ _ => true
  | .fmsubs _ _ _ _ _ => true
  | .fmadds _ _ _ _ _ => true
  | .fnmsubs _ _ _ _ _ => true
  | .fnmadds _ _ _ _ _ => true
  | .std _ _ _ => true
  | .stdu _ ra _ => !storeUpdateInvalid ra
  | .fcmpu _ _ _ => true
  | .frsp _ _ _ => true
  | .fctiw _ _ _ => true
  | .fctiwz _ _ _ => true
  | .fdiv _ _ _ _ => true
  | .fsub _ _ _ _ => true
  | .fadd _ _ _ _ => true
  | .fsqrt _ _ _ => true
  | .fsel _ _ _ _ _ => true
  | .fre _ _ _ => true
  | .fmul _ _ _ _ => true
  | .frsqrte _ _ _ => true
  | .fmsub _ _ _ _ _ => true
  | .fmadd _ _ _ _ _ => true
  | .fnmsub _ _ _ _ _ => true
  | .fnmadd _ _ _ _ _ => true
  | .fcmpo _ _ _ => true
  | .mtfsb1 _ _ => true
  | .fneg _ _ _ => true
  | .mcrfs _ _ => true
  | .mtfsb0 _ _ => true
  | .fmr _ _ _ => true
  | .mtfsfi _ _ _ => true
  | .fnabs _ _ _ => true
  | .fabs _ _ _ => true
  | .mffs _ _ => true
  | .mtfsf _ _ _ => true
  | .fctid _ _ _ => true
  | .fctidz _ _ _ => true
  | .fcfid _ _ _ => true

end Sys2Proof
end

