-- ==== Sys2Proof/Certificates/Slice0/Obligations.lean ====
section
/-!
DEFINITION. The statements for the provers, in the terms of Sys2Proof/Safety.lean.  Each docstring names the rules of spec/
that its statement rests on.
-/

open Sys2Proof Sys2Proof.Machine

/-! ## Encoding -/

/-- Words written out from the layout boxes decode to the instructions they stand for (spec/30_encoding.md R142 to R156); the
word of all zeros and the illegal primary opcodes are rejected (R163). -/
def Obligations.KnownWordsDecode : Prop :=
  decode 0x38640001 = .ok (.addi 3 4 1) ∧
  decode 0x48002002 = .ok (.b 0x800 true false) ∧
  decode 0x7C642E15 = .ok (.add 3 4 5 true true) ∧
  decode 0xE864FFF8 = .ok (.ld 3 4 0x3FFE) ∧
  decode 0x78834001 = .ok (.rldicl 4 3 8 0 true) ∧
  decode 0x7C6903A6 = .ok (.mtspr 3 9) ∧
  decode 0xFC2200F2 = .ok (.fmul 1 2 3 false) ∧
  decode 0xFDFE0D8E = .ok (.mtfsf 0xFF 1 false) ∧
  decode 0 = .error .allZeros ∧
  ∀ w : Word, (fld w 0 6).toNat ∈ [1, 4, 5, 6, 57, 60, 61] → decode w = .error .unusedPrimary

/-- Decoding what the encoder writes gives the instruction back, for every instruction with every operand at every value
(30_encoding.md R142 to R156, R161, R172). -/
def Obligations.DecodeOfEncode : Prop := ∀ i : Instr, decode (encode i) = .ok i

/-! ## The machine -/

/-- Where the word at pc can be fetched and decodes to `i`, a step is the meaning of `i` (60_exceptions.md R725).  The model's
step adds what is its own: the run has begun (log entry 23), and the word is kept for the event records (log entry 6). -/
def Obligations.StepRunsDecodedInstruction : Prop :=
  ∀ (s : State) (i : Instr), s.event = none → s.wellFormed = true → s.available .fetch s.pc 4 = true →
    s.fetchModified = false → decode s.fetchWord = .ok i → step s = exec i (s.inRun.setInsn s.fetchWord)

/-- A fetch from unavailable storage raises InstructionStorage and changes nothing; a fetched word that is no instruction of
the three Books raises IllegalInstruction and has no other effect (60_exceptions.md R713, R715).  That a reserved word does so
too is the spec's decision D3 (30_encoding.md R164; log entry 11); the word kept and the run marked as begun are the model's
own (log entries 6, 23), and so is the event as a field of the state (log entry 10). -/
def Obligations.StepRaisesBeforeExecution : Prop :=
  ∀ (s : State) (e : Rejection), s.event = none → s.wellFormed = true →
    (s.available .fetch s.pc 4 = false → step s = .next { s with begun := true, event := some (.instructionStorage s.pc) }) ∧
    (s.available .fetch s.pc 4 = true → s.fetchModified = false → decode s.fetchWord = .error e →
      (∀ m, e ≠ .otherBook m) →
      step s = .next { s with begun := true, insn := s.fetchWord, event := some (.illegalInstruction s.pc s.fetchWord) })

/-- The reset state satisfies what every step keeps, in Big-Endian mode (10_state.md R85).  That its registers are 0 is the
model's choice (log entry 1). -/
def Obligations.ResetSatisfiesInvariant : Prop := State.reset.Inv ∧ State.reset.env.le = false

/-- Every step keeps the invariant: canonical storage, the aligned pc, the FPSCR summaries, no exception pending before an
instruction; and no step changes the parameters (10_state.md R42, R64, R65).  The canonical form is the model's own; no
exception pending is the spec's condition on the initial state (47_fp_model.md R534; log entries 14, 23), the parameters
constant its reading (log entry 24). -/
def Obligations.StepKeepsInvariant : Prop :=
  ∀ s t : State, s.Inv → step s = .next t → t.Inv ∧ t.env = s.env

/-- An instruction that ends in any event but FloatingPointEnabled has changed nothing else (60_exceptions.md R711).  The source
says "precise"; that it means nothing changed is the spec's decision D10, and D20 for the multiple and string instructions
(log entries 10, 18). -/
def Obligations.EventsChangeNothingElse : Prop :=
  ∀ (i : Instr) (s t : State) (e : Event), exec i s = .next t → s.event = none → t.event = some e →
    (∀ pc insn, e ≠ .floatingPointEnabled pc insn) → s.SameButEvent t

/-- Every instruction but the branches, unless it raises, ends with the next instruction address CIA + 4, its low two bits 0
and in 32-bit mode its high-order 32 bits 0 (10_state.md R43). -/
def Obligations.NonBranchesAdvance : Prop :=
  ∀ (i : Instr) (s t : State), exec i s = .next t → s.event = none → t.event = none →
    (∀ li aa lk, i ≠ .b li aa lk) → (∀ bo bi bd aa lk, i ≠ .bc bo bi bd aa lk) →
    (∀ bo bi bh lk, i ≠ .bclr bo bi bh lk) → (∀ bo bi bh lk, i ≠ .bcctr bo bi bh lk) →
    t.pc = if s.env.mode64 then fld (s.pc + 4) 0 62 ++ (0 : BitVec 2)
      else (0 : BitVec 32) ++ fld (s.pc + 4) 32 30 ++ (0 : BitVec 2)

/-- SO stays 1 until mtspr or mcrxr (10_state.md R54). -/
def Obligations.SummaryOverflowIsSticky : Prop :=
  ∀ (i : Instr) (s t : State), exec i s = .next t → s.so = true →
    (∀ rs spr, i ≠ .mtspr rs spr) → (∀ bf, i ≠ .mcrxr bf) → t.so = true

/-- LR changes only in a branch with LK = 1 or in mtspr 8, CTR only in a branch that counts or in mtspr 9 (10_state.md R51,
R52; 40_branch.md R205, R206). -/
def Obligations.LinkAndCountWriters : Prop :=
  ∀ (i : Instr) (s t : State), exec i s = .next t →
    ((∀ li aa, i ≠ .b li aa true) → (∀ bo bi bd aa, i ≠ .bc bo bi bd aa true) →
      (∀ bo bi bh, i ≠ .bclr bo bi bh true) → (∀ bo bi bh, i ≠ .bcctr bo bi bh true) →
      (∀ rs, i ≠ .mtspr rs 8) → t.lr = s.lr) ∧
    ((∀ bo bi bd aa lk, i = .bc bo bi bd aa lk → bitAt bo 2 = true) →
      (∀ bo bi bh lk, i = .bclr bo bi bh lk → bitAt bo 2 = true) → (∀ rs, i ≠ .mtspr rs 9) → t.ctr = s.ctr)

/-! ## Branches, system call, Condition Register -/

/-- b, ba, bl, bla: the target, and LR if LK = 1.  bc, bclr and bcctr: CTR is decremented unless BO[2] = 1, all 64 bits of it;
the branch is taken when the decremented CTR (its low word in 32-bit mode) and CR[BI] are as BO asks; LR is read before it is
written (40_branch.md R205, R206, R209, R210, R220, R221).  Choice: bcctr with BO[2] = 0, an invalid form, raises
IllegalInstruction (the spec's decision D4; log entry 12). -/
def Obligations.BranchResults : Prop :=
  ∀ (s : State) (li : BitVec 24) (bo bi : BitVec 5) (bd : BitVec 14) (bh : BitVec 2) (aa lk : Bool),
    let ctr := if bitAt bo 2 then s.ctr else s.ctr - 1
    let atZero := if s.env.mode64 then decide (ctr = 0) else decide (fld ctr 32 32 = 0)
    let taken := (bitAt bo 2 || atZero == bitAt bo 3) && (bitAt bo 0 || s.crBit bi == bitAt bo 1)
    let lr := if lk then s.iea (s.pc + 4) else s.lr
    let goes (target : DWord) : State := { s with
      ctr := ctr, lr := lr, pc := if taken then s.iea target else s.iea (s.pc + 4) }
    let base := if aa then 0 else s.pc
    exec (.b li aa lk) s = .next { s with
      lr := lr, pc := s.iea (base + (li ++ (0 : BitVec 2)).signExtend 64) } ∧
    exec (.bc bo bi bd aa lk) s = .next (goes (base + (bd ++ (0 : BitVec 2)).signExtend 64)) ∧
    exec (.bclr bo bi bh lk) s = .next (goes s.lr) ∧
    (bitAt bo 2 = true → exec (.bcctr bo bi bh lk) s = .next (goes s.ctr)) ∧
    (bitAt bo 2 = false → RaisesIllegal (exec (.bcctr bo bi bh lk) s) s)

/-- sc ends the run with SystemCall and its level, bit 26 of the word; with bit 30 = 0 the form is invalid (40_branch.md R211,
60_exceptions.md R717).  Choices: the run ends with pc at the sc (the spec's decision D7; log entry 10), and the invalid form
raises IllegalInstruction (decision D4, 30_encoding.md R166; log entry 12). -/
def Obligations.SystemCallResult : Prop :=
  ∀ (s : State) (lev : BitVec 7),
    Raises (exec (.sc lev true) s) s (.systemCall s.pc s.insn (lev.setWidth 1)) ∧
    RaisesIllegal (exec (.sc lev false) s) s

/-- The Condition Register instructions write one bit, or one field, and nothing else (40_branch.md R212 to R219, R222). -/
def Obligations.ConditionRegisterResults : Prop :=
  ∀ (s : State) (bt ba bb : BitVec 5) (bf bfa : BitVec 3),
    let bit (res : Res) (v : Bool) : Prop := ∃ t, res = .next t ∧ t.crBit bt = v ∧
      (∀ i, i ≠ bt → t.crBit i = s.crBit i) ∧ t = { s with cr := t.cr, pc := s.nextPc }
    let a := s.crBit ba
    let b := s.crBit bb
    bit (exec (.crand bt ba bb) s) (a && b) ∧ bit (exec (.cror bt ba bb) s) (a || b) ∧
    bit (exec (.crxor bt ba bb) s) (a != b) ∧ bit (exec (.crnand bt ba bb) s) (!(a && b)) ∧
    bit (exec (.crnor bt ba bb) s) (!(a || b)) ∧ bit (exec (.creqv bt ba bb) s) (a == b) ∧
    bit (exec (.crandc bt ba bb) s) (a && !b) ∧ bit (exec (.crorc bt ba bb) s) (a || !b) ∧
    ∃ t, exec (.mcrf bf bfa) s = .next t ∧ t.crField bf = s.crField bfa ∧ s.OtherCrFields t bf ∧
      t = { s with cr := t.cr, pc := s.nextPc }

/-! ## Fixed-point arithmetic -/

/-- The adds, subtracts and negate: the sum of 64 bits in both modes; CA, OV and SO, CR Field 0 by the mode.  addi and addis
take 0 for RA = 0; addic, addic. and subfic set CA, and only addic. of the immediate forms records (43_fx_arith.md R334 to
R349; 10_state.md R47, R54 to R56). -/
def Obligations.AddSubtractResults : Prop :=
  ∀ (s : State) (rt ra rb : RegNum) (si : BitVec 16) (oe rc : Bool),
    let a := s.gprOf ra
    let b := s.gprOf rb
    let c := if s.ca then 1 else 0
    let base := if ra = 0 then 0 else a
    AddsInto (exec (.addi rt ra si) s) s rt base (si.signExtend 64) 0 false false false ∧
    AddsInto (exec (.addis rt ra si) s) s rt base ((si ++ (0 : BitVec 16)).signExtend 64) 0 false false false ∧
    AddsInto (exec (.addic rt ra si) s) s rt a (si.signExtend 64) 0 true false false ∧
    AddsInto (exec (.addicRec rt ra si) s) s rt a (si.signExtend 64) 0 true false true ∧
    AddsInto (exec (.subfic rt ra si) s) s rt (~~~a) (si.signExtend 64) 1 true false false ∧
    AddsInto (exec (.add rt ra rb oe rc) s) s rt a b 0 false oe rc ∧
    AddsInto (exec (.subf rt ra rb oe rc) s) s rt (~~~a) b 1 false oe rc ∧
    AddsInto (exec (.addc rt ra rb oe rc) s) s rt a b 0 true oe rc ∧
    AddsInto (exec (.subfc rt ra rb oe rc) s) s rt (~~~a) b 1 true oe rc ∧
    AddsInto (exec (.adde rt ra rb oe rc) s) s rt a b c true oe rc ∧
    AddsInto (exec (.subfe rt ra rb oe rc) s) s rt (~~~a) b c true oe rc ∧
    AddsInto (exec (.addme rt ra oe rc) s) s rt a (-1) c true oe rc ∧
    AddsInto (exec (.subfme rt ra oe rc) s) s rt (~~~a) (-1) c true oe rc ∧
    AddsInto (exec (.addze rt ra oe rc) s) s rt a 0 c true oe rc ∧
    AddsInto (exec (.subfze rt ra oe rc) s) s rt (~~~a) 0 c true oe rc ∧
    AddsInto (exec (.neg rt ra oe rc) s) s rt (~~~a) 0 1 false oe rc

/-- mulli, mulld, mullw: the low 64 bits of the product of the signed operands; OV says that the product does not fit the
instruction's width (43_fx_arith.md R350 to R352). -/
def Obligations.MultiplyLowResults : Prop :=
  ∀ (s : State) (rt ra rb : RegNum) (si : BitVec 16) (oe rc : Bool),
    let a := s.gprOf ra
    let b := s.gprOf rb
    let low (res : Res) (p : Int) (w : Nat) (oe rc : Bool) : Prop := ∃ t, res = .next t ∧
      (t.gprOf rt).toNat = (p % 2 ^ 64).toNat ∧
      s.OverflowNoted t oe (decide (p < -2 ^ (w - 1)) || decide (2 ^ (w - 1) ≤ p)) ∧
      SameOutside 0xC0000000 s.xer t.xer ∧ s.Recorded t rc (t.gprOf rt) ∧ t.undef = s.undef ∧ s.FixedPoint t rt
    low (exec (.mulli rt ra si) s) (a.toInt * si.toInt) 64 false false ∧
    low (exec (.mulld rt ra rb oe rc) s) (a.toInt * b.toInt) 64 oe rc ∧
    low (exec (.mullw rt ra rb oe rc) s) ((lowWord a).toInt * (lowWord b).toInt) 32 oe rc

/-- mulhd, mulhdu, mulhw, mulhwu: the high-order half of the exact product; the word forms leave RT[0:31], and in 64-bit mode
CR0's first three bits, free (43_fx_arith.md R354 to R357). -/
def Obligations.MultiplyHighResults : Prop :=
  ∀ (s : State) (rt ra rb : RegNum) (rc : Bool),
    let a := s.gprOf ra
    let b := s.gprOf rb
    let wordForm (res : Res) (p : Int) : Prop := ∃ t, res = .next t ∧
      (lowWord (t.gprOf rt)).toNat = (p / 2 ^ 32 % 2 ^ 32).toNat ∧ t.xer = s.xer ∧
      (if rc then bitAt t.cr 3 = s.so ∧ s.OtherCrFields t 0 else t.cr = s.cr) ∧
      (s.env.mode64 = false → s.Recorded t rc (t.gprOf rt)) ∧ s.FixedPoint t rt
    WritesGpr (exec (.mulhd rt ra rb rc) s) s rt (BitVec.ofInt 64 (a.toInt * b.toInt / 2 ^ 64)) rc ∧
    WritesGpr (exec (.mulhdu rt ra rb rc) s) s rt (BitVec.ofNat 64 (a.toNat * b.toNat / 2 ^ 64)) rc ∧
    wordForm (exec (.mulhw rt ra rb rc) s) ((lowWord a).toInt * (lowWord b).toInt) ∧
    wordForm (exec (.mulhwu rt ra rb rc) s) (((lowWord a).toNat : Int) * (lowWord b).toNat)

/-- Division: the exact quotient truncated toward zero, OV 0 if OE = 1; a divisor of 0 and the most negative dividend over -1
leave RT and CR0's first three bits free, OV and SO are 1 if OE = 1, and no event is raised (43_fx_arith.md R358 to R362). -/
def Obligations.DivideResults : Prop :=
  ∀ (s : State) (rt ra rb : RegNum) (oe rc : Bool),
    let a := s.gprOf ra
    let b := s.gprOf rb
    let doubleword (res : Res) (q : Int) : Prop := ∃ t, res = .next t ∧
      (t.gprOf rt).toNat = (q % 2 ^ 64).toNat ∧ s.OverflowNoted t oe false ∧ SameOutside 0xC0000000 s.xer t.xer ∧
      s.Recorded t rc (t.gprOf rt) ∧ t.undef = s.undef ∧ s.FixedPoint t rt
    let wordForm (res : Res) (q : Int) : Prop := ∃ t, res = .next t ∧
      (lowWord (t.gprOf rt)).toNat = (q % 2 ^ 32).toNat ∧ s.OverflowNoted t oe false ∧
      SameOutside 0xC0000000 s.xer t.xer ∧
      (if rc then bitAt t.cr 3 = t.so ∧ s.OtherCrFields t 0 else t.cr = s.cr) ∧
      (s.env.mode64 = false → s.Recorded t rc (t.gprOf rt)) ∧ s.FixedPoint t rt
    let undefined (res : Res) : Prop := ∃ t, res = .next t ∧ s.OverflowNoted t oe true ∧
      SameOutside 0xC0000000 s.xer t.xer ∧
      (if rc then bitAt t.cr 3 = t.so ∧ s.OtherCrFields t 0 else t.cr = s.cr) ∧ s.FixedPoint t rt
    (b ≠ 0 → doubleword (exec (.divdu rt ra rb oe rc) s) (a.toNat / b.toNat : Nat)) ∧
    (b ≠ 0 → ¬(a.toInt = -2 ^ 63 ∧ b.toInt = -1) →
      doubleword (exec (.divd rt ra rb oe rc) s) (a.toInt.tdiv b.toInt)) ∧
    (lowWord b ≠ 0 →
      wordForm (exec (.divwu rt ra rb oe rc) s) ((lowWord a).toNat / (lowWord b).toNat : Nat)) ∧
    (lowWord b ≠ 0 → ¬((lowWord a).toInt = -2 ^ 31 ∧ (lowWord b).toInt = -1) →
      wordForm (exec (.divw rt ra rb oe rc) s) ((lowWord a).toInt.tdiv (lowWord b).toInt)) ∧
    (b = 0 → undefined (exec (.divdu rt ra rb oe rc) s)) ∧
    (b = 0 ∨ (a.toInt = -2 ^ 63 ∧ b.toInt = -1) → undefined (exec (.divd rt ra rb oe rc) s)) ∧
    (lowWord b = 0 → undefined (exec (.divwu rt ra rb oe rc) s)) ∧
    (lowWord b = 0 ∨ ((lowWord a).toInt = -2 ^ 31 ∧ (lowWord b).toInt = -1) →
      undefined (exec (.divw rt ra rb oe rc) s))

/-! ## Compare, trap, logical -/

/-- The compares set exactly one of LT, GT, EQ of the field and copy SO (44_fx_compare_trap_logical.md R381 to R384). -/
def Obligations.CompareResults : Prop :=
  ∀ (s : State) (bf : BitVec 3) (l : Bool) (ra rb : RegNum) (imm : BitVec 16),
    let sv (x : DWord) : Int := if l then x.toInt else (lowWord x).toInt
    let uv (x : DWord) : Int := if l then x.toNat else (lowWord x).toNat
    let compared (res : Res) (x y : Int) : Prop := ∃ t, res = .next t ∧
      bitAt t.cr (4 * bf.toNat) = decide (x < y) ∧ bitAt t.cr (4 * bf.toNat + 1) = decide (y < x) ∧
      bitAt t.cr (4 * bf.toNat + 2) = decide (x = y) ∧ bitAt t.cr (4 * bf.toNat + 3) = s.so ∧
      s.OtherCrFields t bf ∧ t = { s with cr := t.cr, pc := s.nextPc }
    compared (exec (.cmpi bf l ra imm) s) (sv (s.gprOf ra)) imm.toInt ∧
    compared (exec (.cmp bf l ra rb) s) (sv (s.gprOf ra)) (sv (s.gprOf rb)) ∧
    compared (exec (.cmpli bf l ra imm) s) (uv (s.gprOf ra)) imm.toNat ∧
    compared (exec (.cmpl bf l ra rb) s) (uv (s.gprOf ra)) (uv (s.gprOf rb))

/-- The Trap instructions raise Trap when a condition that TO selects holds, and otherwise only go on
(44_fx_compare_trap_logical.md R390 to R394).  Choice: a Trap that traps ends the run with pc at the instruction and no other
effect (60_exceptions.md R718, the spec's decision D8; log entry 10). -/
def Obligations.TrapResults : Prop :=
  ∀ (s : State) (tos : BitVec 5) (ra rb : RegNum) (si : BitVec 16),
    let traps (x y : Int) (ux uy : Nat) : Bool :=
      (bitAt tos 0 && decide (x < y)) || (bitAt tos 1 && decide (y < x)) || (bitAt tos 2 && decide (x = y)) ||
        (bitAt tos 3 && decide (ux < uy)) || (bitAt tos 4 && decide (uy < ux))
    let outcome (res : Res) (c : Bool) : Prop :=
      (c = true → Raises res s (.trap s.pc s.insn)) ∧ (c = false → res = .next { s with pc := s.nextPc })
    let a := s.gprOf ra
    let b := s.gprOf rb
    let w (x : DWord) : DWord := (lowWord x).signExtend 64
    let k : DWord := si.signExtend 64
    outcome (exec (.tdi tos ra si) s) (traps a.toInt k.toInt a.toNat k.toNat) ∧
    outcome (exec (.td tos ra rb) s) (traps a.toInt b.toInt a.toNat b.toNat) ∧
    outcome (exec (.twi tos ra si) s) (traps (w a).toInt k.toInt (w a).toNat k.toNat) ∧
    outcome (exec (.tw tos ra rb) s) (traps (w a).toInt (w b).toInt (w a).toNat (w b).toNat)

/-- The logical instructions: with an immediate, low or shifted; on registers, bit by bit
(44_fx_compare_trap_logical.md R397, R398, R401 to R412). -/
def Obligations.LogicalResults : Prop :=
  ∀ (s : State) (rs ra rb : RegNum) (ui : BitVec 16) (rc : Bool),
    let lo : DWord := ui.setWidth 64
    let hi : DWord := ui.setWidth 64 <<< 16
    let x (i : Nat) : Bool := bitAt (s.gprOf rs) i
    let y (i : Nat) : Bool := bitAt (s.gprOf rb) i
    WritesGpr (exec (.andiRec rs ra ui) s) s ra (s.gprOf rs &&& lo) true ∧
    WritesGpr (exec (.andisRec rs ra ui) s) s ra (s.gprOf rs &&& hi) true ∧
    WritesGpr (exec (.ori rs ra ui) s) s ra (s.gprOf rs ||| lo) false ∧
    WritesGpr (exec (.oris rs ra ui) s) s ra (s.gprOf rs ||| hi) false ∧
    WritesGpr (exec (.xori rs ra ui) s) s ra (s.gprOf rs ^^^ lo) false ∧
    WritesGpr (exec (.xoris rs ra ui) s) s ra (s.gprOf rs ^^^ hi) false ∧
    WritesBits (exec (.and rs ra rb rc) s) s ra (fun i => x i && y i) rc ∧
    WritesBits (exec (.or rs ra rb rc) s) s ra (fun i => x i || y i) rc ∧
    WritesBits (exec (.xor rs ra rb rc) s) s ra (fun i => x i != y i) rc ∧
    WritesBits (exec (.nand rs ra rb rc) s) s ra (fun i => !(x i && y i)) rc ∧
    WritesBits (exec (.nor rs ra rb rc) s) s ra (fun i => !(x i || y i)) rc ∧
    WritesBits (exec (.eqv rs ra rb rc) s) s ra (fun i => x i == y i) rc ∧
    WritesBits (exec (.andc rs ra rb rc) s) s ra (fun i => x i && !y i) rc ∧
    WritesBits (exec (.orc rs ra rb rc) s) s ra (fun i => x i || !y i) rc

/-- extsb, extsh, extsw fill with the sign; cntlzd and cntlzw count the zeros before the first 1; popcntb counts the 1s of
each byte (44_fx_compare_trap_logical.md R413 to R418). -/
def Obligations.ExtendAndCountResults : Prop :=
  ∀ (s : State) (rs ra : RegNum) (rc : Bool),
    let x := s.gprOf rs
    let zerosCounted (res : Res) (n : Nat) : Prop := ∃ t, res = .next t ∧
      (∀ i, i < (t.gprOf ra).toNat → bitAt x (64 - n + i) = false) ∧
      ((t.gprOf ra).toNat = n ∨ (t.gprOf ra).toNat < n ∧ bitAt x (64 - n + (t.gprOf ra).toNat) = true) ∧
      s.Recorded t rc (t.gprOf ra) ∧ t.xer = s.xer ∧ t.undef = s.undef ∧ s.FixedPoint t ra
    WritesGpr (exec (.extsb rs ra rc) s) s ra ((x.setWidth 8).signExtend 64) rc ∧
    WritesGpr (exec (.extsh rs ra rc) s) s ra ((x.setWidth 16).signExtend 64) rc ∧
    WritesGpr (exec (.extsw rs ra rc) s) s ra ((x.setWidth 32).signExtend 64) rc ∧
    zerosCounted (exec (.cntlzd rs ra rc) s) 64 ∧ zerosCounted (exec (.cntlzw rs ra rc) s) 32 ∧
    ∃ t, exec (.popcntb rs ra) s = .next t ∧
      (∀ i, i < 8 → (fld (t.gprOf ra) (8 * i) 8).toNat =
        ((List.range 8).filter fun j => bitAt x (8 * i + j)).length) ∧
      t.cr = s.cr ∧ t.xer = s.xer ∧ t.undef = s.undef ∧ s.FixedPoint t ra

/-! ## Rotate and shift -/

/-- MASK(mstart, mstop): 1-bits from mstart through mstop, wrapping from position 63 to position 0, 0-bits elsewhere
(45_fx_rotate_shift.md R441). -/
def Obligations.MaskGenerator : Prop :=
  ∀ mstart mstop i : Nat, mstart < 64 → mstop < 64 → i < 64 →
    bitAt (maskBits mstart mstop) i = if mstart ≤ mstop then decide (mstart ≤ i ∧ i ≤ mstop)
      else decide (mstart ≤ i ∨ i ≤ mstop)

/-- The rotates, bit by bit: cleared outside the mask, or, for rldimi and rlwimi, RA kept there (45_fx_rotate_shift.md R440,
R441, R445 to R454). -/
def Obligations.RotateResults : Prop :=
  ∀ (s : State) (rs ra rb : RegNum) (sh m : BitVec 6) (sh5 mb me : BitVec 5) (rc : Bool),
    let x := s.gprOf rs
    let old := s.gprOf ra
    let n := (fld (s.gprOf rb) 58 6).toNat
    let n5 := (fld (s.gprOf rb) 59 5).toNat
    WritesBits (exec (.rldicl rs ra sh m rc) s) s ra
      (fun i => inMask m.toNat 63 i && rotatedBit x sh.toNat i) rc ∧
    WritesBits (exec (.rldicr rs ra sh m rc) s) s ra
      (fun i => inMask 0 m.toNat i && rotatedBit x sh.toNat i) rc ∧
    WritesBits (exec (.rldic rs ra sh m rc) s) s ra
      (fun i => inMask m.toNat (63 - sh.toNat) i && rotatedBit x sh.toNat i) rc ∧
    WritesBits (exec (.rldcl rs ra rb m rc) s) s ra
      (fun i => inMask m.toNat 63 i && rotatedBit x n i) rc ∧
    WritesBits (exec (.rldcr rs ra rb m rc) s) s ra
      (fun i => inMask 0 m.toNat i && rotatedBit x n i) rc ∧
    WritesBits (exec (.rlwinm rs ra sh5 mb me rc) s) s ra
      (fun i => inMask (mb.toNat + 32) (me.toNat + 32) i && rotatedWordBit x sh5.toNat i) rc ∧
    WritesBits (exec (.rlwnm rs ra rb mb me rc) s) s ra
      (fun i => inMask (mb.toNat + 32) (me.toNat + 32) i && rotatedWordBit x n5 i) rc ∧
    WritesBits (exec (.rldimi rs ra sh m rc) s) s ra
      (fun i => if inMask m.toNat (63 - sh.toNat) i then rotatedBit x sh.toNat i else bitAt old i) rc ∧
    WritesBits (exec (.rlwimi rs ra sh5 mb me rc) s) s ra
      (fun i => if inMask (mb.toNat + 32) (me.toNat + 32) i then rotatedWordBit x sh5.toNat i else bitAt old i) rc

/-- The shifts: the whole amount field counts; the logical ones shift in zeros, the word forms working on the low word and
clearing the high word; the algebraic ones divide by 2^n rounding down and set CA when a negative operand loses 1-bits
(45_fx_rotate_shift.md R455 to R463). -/
def Obligations.ShiftResults : Prop :=
  ∀ (s : State) (rs ra rb : RegNum) (sh : BitVec 6) (sh5 : BitVec 5) (rc : Bool),
    let x := s.gprOf rs
    let n := (fld (s.gprOf rb) 57 7).toNat
    let n6 := (fld (s.gprOf rb) 58 6).toNat
    let shifted (res : Res) (v : Int) (n : Nat) : Prop := ∃ t, res = .next t ∧
      (t.gprOf ra).toInt = v / 2 ^ n ∧ t.ca = (decide (v < 0) && decide (v % 2 ^ n ≠ 0)) ∧
      SameOutside 0x20000000 s.xer t.xer ∧ s.Recorded t rc (t.gprOf ra) ∧ t.undef = s.undef ∧ s.FixedPoint t ra
    WritesGpr (exec (.sld rs ra rb rc) s) s ra (x <<< n) rc ∧
    WritesGpr (exec (.srd rs ra rb rc) s) s ra (x >>> n) rc ∧
    WritesGpr (exec (.slw rs ra rb rc) s) s ra ((lowWord x <<< n6).setWidth 64) rc ∧
    WritesGpr (exec (.srw rs ra rb rc) s) s ra ((lowWord x >>> n6).setWidth 64) rc ∧
    shifted (exec (.sradi rs ra sh rc) s) x.toInt sh.toNat ∧
    shifted (exec (.srad rs ra rb rc) s) x.toInt n ∧
    shifted (exec (.srawi rs ra sh5 rc) s) (lowWord x).toInt sh5.toNat ∧
    shifted (exec (.sraw rs ra rb rc) s) (lowWord x).toInt n6

/-! ## Loads and stores -/

/-- The loads without update: the operand in the byte order in effect, zero- or sign-extended; RA = 0 stands for 0
(41_fx_load_store.md R240 to R268, 20_memory.md R92, R93). -/
def Obligations.LoadResults : Prop :=
  ∀ (s : State) (rt ra rb : RegNum) (d : BitVec 16) (ds : BitVec 14),
    let base := if ra = 0 then 0 else s.gprOf ra
    let eaX := base + s.gprOf rb
    let eaD := base + d.signExtend 64
    let eaDS := base + (ds ++ (0 : BitVec 2)).signExtend 64
    let z (ea : DWord) (n : Nat) (res : Res) : Prop :=
      s.Accessible .load ea n → LoadsGpr res s rt (s.operandValue ea n) none
    let a (ea : DWord) (n : Nat) (res : Res) : Prop :=
      s.Accessible .load ea n → LoadsGpr res s rt (signedValue n (s.operandValue ea n)) none
    z eaD 1 (exec (.lbz rt ra d) s) ∧ z eaX 1 (exec (.lbzx rt ra rb) s) ∧
    z eaD 2 (exec (.lhz rt ra d) s) ∧ z eaX 2 (exec (.lhzx rt ra rb) s) ∧
    a eaD 2 (exec (.lha rt ra d) s) ∧ a eaX 2 (exec (.lhax rt ra rb) s) ∧
    z eaD 4 (exec (.lwz rt ra d) s) ∧ z eaX 4 (exec (.lwzx rt ra rb) s) ∧
    a eaDS 4 (exec (.lwa rt ra ds) s) ∧ a eaX 4 (exec (.lwax rt ra rb) s) ∧
    z eaDS 8 (exec (.ld rt ra ds) s) ∧ z eaX 8 (exec (.ldx rt ra rb) s)

/-- The loads with update: RA takes all 64 bits of the effective address; RA = 0 and RA = RT are invalid forms
(41_fx_load_store.md R243, 20_memory.md R95).  Choice: an invalid form raises IllegalInstruction, the first of the two
outcomes the source allows (the spec's decision D4; log entry 12). -/
def Obligations.LoadWithUpdateResults : Prop :=
  ∀ (s : State) (rt ra rb : RegNum) (d : BitVec 16) (ds : BitVec 14),
    let eaX := s.gprOf ra + s.gprOf rb
    let eaD := s.gprOf ra + d.signExtend 64
    let eaDS := s.gprOf ra + (ds ++ (0 : BitVec 2)).signExtend 64
    let z (ea : DWord) (n : Nat) (res : Res) : Prop :=
      (ra ≠ 0 → ra ≠ rt → s.Accessible .load ea n →
        LoadsGpr res s rt (s.operandValue ea n) (some (ra, ea))) ∧ (ra = 0 ∨ ra = rt → RaisesIllegal res s)
    let a (ea : DWord) (n : Nat) (res : Res) : Prop :=
      (ra ≠ 0 → ra ≠ rt → s.Accessible .load ea n →
        LoadsGpr res s rt (signedValue n (s.operandValue ea n)) (some (ra, ea))) ∧
      (ra = 0 ∨ ra = rt → RaisesIllegal res s)
    z eaD 1 (exec (.lbzu rt ra d) s) ∧ z eaX 1 (exec (.lbzux rt ra rb) s) ∧
    z eaD 2 (exec (.lhzu rt ra d) s) ∧ z eaX 2 (exec (.lhzux rt ra rb) s) ∧
    a eaD 2 (exec (.lhau rt ra d) s) ∧ a eaX 2 (exec (.lhaux rt ra rb) s) ∧
    z eaD 4 (exec (.lwzu rt ra d) s) ∧ z eaX 4 (exec (.lwzux rt ra rb) s) ∧
    a eaX 4 (exec (.lwaux rt ra rb) s) ∧
    z eaDS 8 (exec (.ldu rt ra ds) s) ∧ z eaX 8 (exec (.ldux rt ra rb) s)

/-- The stores: the low-order bytes of RS stand at the effective address and no other byte changes (41_fx_load_store.md R240,
R269 to R284, 20_memory.md R92).  With update RA takes the effective address, and RS is read before RA is written, RS = RA
included (R244, 20_memory.md R95).  Choice: RA = 0 with update, an invalid form, raises IllegalInstruction (the spec's decision
D4; log entry 12). -/
def Obligations.StoreResults : Prop :=
  ∀ (s : State) (rs ra rb : RegNum) (d : BitVec 16) (ds : BitVec 14), s.mem.wf = true →
    let base := if ra = 0 then 0 else s.gprOf ra
    let eaX := base + s.gprOf rb
    let eaD := base + d.signExtend 64
    let eaDS := base + (ds ++ (0 : BitVec 2)).signExtend 64
    let st (ea : DWord) (n : Nat) (res : Res) : Prop :=
      s.Accessible .store ea n → StoresOperand res s ea n (s.gprOf rs).toNat none
    let stu (ea : DWord) (n : Nat) (res : Res) : Prop :=
      (ra ≠ 0 → s.Accessible .store ea n → StoresOperand res s ea n (s.gprOf rs).toNat (some ra)) ∧
      (ra = 0 → RaisesIllegal res s)
    st eaD 1 (exec (.stb rs ra d) s) ∧ st eaX 1 (exec (.stbx rs ra rb) s) ∧
    st eaD 2 (exec (.sth rs ra d) s) ∧ st eaX 2 (exec (.sthx rs ra rb) s) ∧
    st eaD 4 (exec (.stw rs ra d) s) ∧ st eaX 4 (exec (.stwx rs ra rb) s) ∧
    st eaDS 8 (exec (.std rs ra ds) s) ∧ st eaX 8 (exec (.stdx rs ra rb) s) ∧
    stu eaD 1 (exec (.stbu rs ra d) s) ∧ stu eaX 1 (exec (.stbux rs ra rb) s) ∧
    stu eaD 2 (exec (.sthu rs ra d) s) ∧ stu eaX 2 (exec (.sthux rs ra rb) s) ∧
    stu eaD 4 (exec (.stwu rs ra d) s) ∧ stu eaX 4 (exec (.stwux rs ra rb) s) ∧
    stu eaDS 8 (exec (.stdu rs ra ds) s) ∧ stu eaX 8 (exec (.stdux rs ra rb) s)

/-- Byte reversal: the operand's bytes in the other order (42_fx_multiple_string.md R302 to R305). -/
def Obligations.ByteReversalResults : Prop :=
  ∀ (s : State) (r ra rb : RegNum),
    let ea := (if ra = 0 then 0 else s.gprOf ra) + s.gprOf rb
    let byte (v k : Nat) : Nat := v / 256 ^ k % 256
    let rev2 (v : Nat) : Nat := byte v 0 * 256 + byte v 1
    let rev4 (v : Nat) : Nat := byte v 0 * 256 ^ 3 + byte v 1 * 256 ^ 2 + byte v 2 * 256 + byte v 3
    (s.Accessible .load ea 2 → LoadsGpr (exec (.lhbrx r ra rb) s) s r (rev2 (s.operandValue ea 2)) none) ∧
    (s.Accessible .load ea 4 → LoadsGpr (exec (.lwbrx r ra rb) s) s r (rev4 (s.operandValue ea 4)) none) ∧
    (s.mem.wf = true → s.Accessible .store ea 2 →
      StoresOperand (exec (.sthbrx r ra rb) s) s ea 2 (rev2 (s.gprOf r).toNat) none) ∧
    (s.mem.wf = true → s.Accessible .store ea 4 →
      StoresOperand (exec (.stwbrx r ra rb) s) s ea 4 (rev4 (s.gprOf r).toNat) none)

/-- Every single-register access, with update or without: one that ALIGN_FAULT turns away raises Alignment, and one to
unavailable storage raises DataStorage (20_memory.md R95 to R97, R100; 60_exceptions.md R714, R716).  Choices: alignment is
tested before availability, the address is that of the first byte, truncated (the spec's decisions D6 and D10; log entry 13),
and there is no other effect (D10; log entry 10).  Invalid forms come first, in the statements on the instructions. -/
def Obligations.AccessFaults : Prop :=
  ∀ (s : State) (r ra rb : RegNum) (d : BitVec 16) (ds : BitVec 14),
    let base := if ra = 0 then 0 else s.gprOf ra
    let eaX := base + s.gprOf rb
    let eaD := base + d.signExtend 64
    let eaDS := base + (ds ++ (0 : BitVec 2)).signExtend 64
    let faults (kind : AccessKind) (ea : DWord) (n : Nat) (res : Res) : Prop :=
      (s.alignFault (s.trunc ea) n = true → Raises res s (.alignment s.pc s.insn (s.trunc ea))) ∧
      (s.alignFault (s.trunc ea) n = false → s.available kind ea n = false →
        Raises res s (.dataStorage s.pc s.insn (s.trunc ea) kind))
    faults .load eaD 1 (exec (.lbz r ra d) s) ∧ faults .load eaX 1 (exec (.lbzx r ra rb) s) ∧
    faults .load eaD 2 (exec (.lhz r ra d) s) ∧ faults .load eaX 2 (exec (.lhzx r ra rb) s) ∧
    faults .load eaD 2 (exec (.lha r ra d) s) ∧ faults .load eaX 2 (exec (.lhax r ra rb) s) ∧
    faults .load eaD 4 (exec (.lwz r ra d) s) ∧ faults .load eaX 4 (exec (.lwzx r ra rb) s) ∧
    faults .load eaDS 4 (exec (.lwa r ra ds) s) ∧ faults .load eaX 4 (exec (.lwax r ra rb) s) ∧
    faults .load eaDS 8 (exec (.ld r ra ds) s) ∧ faults .load eaX 8 (exec (.ldx r ra rb) s) ∧
    faults .load eaX 2 (exec (.lhbrx r ra rb) s) ∧ faults .load eaX 4 (exec (.lwbrx r ra rb) s) ∧
    faults .load eaD 4 (exec (.lfs r ra d) s) ∧ faults .load eaX 4 (exec (.lfsx r ra rb) s) ∧
    faults .load eaD 8 (exec (.lfd r ra d) s) ∧ faults .load eaX 8 (exec (.lfdx r ra rb) s) ∧
    faults .store eaD 1 (exec (.stb r ra d) s) ∧ faults .store eaX 1 (exec (.stbx r ra rb) s) ∧
    faults .store eaD 2 (exec (.sth r ra d) s) ∧ faults .store eaX 2 (exec (.sthx r ra rb) s) ∧
    faults .store eaD 4 (exec (.stw r ra d) s) ∧ faults .store eaX 4 (exec (.stwx r ra rb) s) ∧
    faults .store eaDS 8 (exec (.std r ra ds) s) ∧ faults .store eaX 8 (exec (.stdx r ra rb) s) ∧
    faults .store eaX 2 (exec (.sthbrx r ra rb) s) ∧ faults .store eaX 4 (exec (.stwbrx r ra rb) s) ∧
    faults .store eaD 4 (exec (.stfs r ra d) s) ∧ faults .store eaX 4 (exec (.stfsx r ra rb) s) ∧
    faults .store eaD 8 (exec (.stfd r ra d) s) ∧ faults .store eaX 8 (exec (.stfdx r ra rb) s) ∧
    faults .store eaX 4 (exec (.stfiwx r ra rb) s) ∧
    (ra ≠ 0 →
      faults .store eaD 1 (exec (.stbu r ra d) s) ∧ faults .store eaX 1 (exec (.stbux r ra rb) s) ∧
      faults .store eaD 2 (exec (.sthu r ra d) s) ∧ faults .store eaX 2 (exec (.sthux r ra rb) s) ∧
      faults .store eaD 4 (exec (.stwu r ra d) s) ∧ faults .store eaX 4 (exec (.stwux r ra rb) s) ∧
      faults .store eaDS 8 (exec (.stdu r ra ds) s) ∧ faults .store eaX 8 (exec (.stdux r ra rb) s) ∧
      faults .load eaD 4 (exec (.lfsu r ra d) s) ∧ faults .load eaX 4 (exec (.lfsux r ra rb) s) ∧
      faults .load eaD 8 (exec (.lfdu r ra d) s) ∧ faults .load eaX 8 (exec (.lfdux r ra rb) s) ∧
      faults .store eaD 4 (exec (.stfsu r ra d) s) ∧ faults .store eaX 4 (exec (.stfsux r ra rb) s) ∧
      faults .store eaD 8 (exec (.stfdu r ra d) s) ∧ faults .store eaX 8 (exec (.stfdux r ra rb) s) ∧
      (ra ≠ r →
        faults .load eaD 1 (exec (.lbzu r ra d) s) ∧ faults .load eaX 1 (exec (.lbzux r ra rb) s) ∧
        faults .load eaD 2 (exec (.lhzu r ra d) s) ∧ faults .load eaX 2 (exec (.lhzux r ra rb) s) ∧
        faults .load eaD 2 (exec (.lhau r ra d) s) ∧ faults .load eaX 2 (exec (.lhaux r ra rb) s) ∧
        faults .load eaD 4 (exec (.lwzu r ra d) s) ∧ faults .load eaX 4 (exec (.lwzux r ra rb) s) ∧
        faults .load eaX 4 (exec (.lwaux r ra rb) s) ∧
        faults .load eaDS 8 (exec (.ldu r ra ds) s) ∧ faults .load eaX 8 (exec (.ldux r ra rb) s)))

/-- The multiple and string instructions in Little-Endian mode raise Alignment whatever their operands; lmw and stmw raise it in
Big-Endian mode when ALIGN_FAULT turns them away; otherwise the first unavailable unit, a word of lmw and stmw, a byte of the
string instructions, raises DataStorage with its address (42_fx_multiple_string.md R301, 20_memory.md R100, R110;
60_exceptions.md R714, R716).  Choices: the order of the checks, and no other effect though the transfer may have more units
(the spec's decisions D6, D10 and D20; log entries 10, 13, 18).  Invalid forms come before these checks. -/
def Obligations.MultipleAccessFaults : Prop :=
  ∀ (s : State) (r ra rb : RegNum) (d : BitVec 16) (nb : BitVec 5) (k : Nat),
    let base := if ra = 0 then 0 else s.gprOf ra
    let eaX := base + s.gprOf rb
    let eaD := base + d.signExtend 64
    let immediate := if nb = 0 then 32 else nb.toNat
    let count := (fld s.xer 57 7).toNat
    let turned (res : Res) (ea : DWord) : Prop := Raises res s (.alignment s.pc s.insn (s.trunc ea))
    let denied (kind : AccessKind) (ea : DWord) (size n : Nat) (res : Res) : Prop :=
      let unit (j : Nat) : DWord := ea + BitVec.ofNat 64 (size * j)
      k < n → (∀ j, j < k → s.available kind (unit j) size = true) → s.available kind (unit k) size = false →
        Raises res s (.dataStorage s.pc s.insn (s.trunc (unit k)) kind)
    let multiple (kind : AccessKind) (res : Res) : Prop :=
      (s.env.le = true → turned res eaD) ∧
      (s.env.le = false → s.alignFaultMultiple (s.trunc eaD) = true → turned res eaD) ∧
      (s.env.le = false → s.alignFaultMultiple (s.trunc eaD) = false → denied kind eaD 4 (32 - r.toNat) res)
    let string (kind : AccessKind) (ea : DWord) (n : Nat) (res : Res) : Prop :=
      (s.env.le = true → turned res ea) ∧ (s.env.le = false → denied kind ea 1 n res)
    let inRange (q : RegNum) (n : Nat) : Prop := 4 * (q - r).toNat < n
    (ra.toNat < r.toNat → multiple .load (exec (.lmw r ra d) s)) ∧ multiple .store (exec (.stmw r ra d) s) ∧
    (¬inRange ra immediate → string .load base immediate (exec (.lswi r ra nb) s)) ∧
    (r ≠ ra → r ≠ rb → ¬inRange ra count → ¬inRange rb count →
      string .load eaX count (exec (.lswx r ra rb) s)) ∧
    string .store base immediate (exec (.stswi r ra nb) s) ∧
    string .store eaX count (exec (.stswx r ra rb) s)

/-- lmw and stmw move the words from `ea` up to and from the registers from RT to 31; lmw with RA in that range is an invalid
form (42_fx_multiple_string.md R301, R307, R308).  Choice: the invalid form raises IllegalInstruction (the spec's decision D4;
log entry 12). -/
def Obligations.MultipleResults : Prop :=
  ∀ (s : State) (r ra : RegNum) (d : BitVec 16), s.env.le = false →
    let ea := (if ra = 0 then 0 else s.gprOf ra) + d.signExtend 64
    let count := 32 - r.toNat
    let word (k : Nat) : DWord := ea + BitVec.ofNat 64 (4 * k)
    (r.toNat ≤ ra.toNat → RaisesIllegal (exec (.lmw r ra d) s) s) ∧
    (ra.toNat < r.toNat → s.alignFaultMultiple (s.trunc ea) = false →
      (∀ k, k < count → s.available .load (word k) 4 = true) →
      ∃ t, exec (.lmw r ra d) s = .next t ∧
        (∀ q : RegNum, (t.gprOf q).toNat =
          if q.toNat < r.toNat then (s.gprOf q).toNat else s.bigEndianValue (word (q.toNat - r.toNat)) 4) ∧
        s.SameBytes t ∧ t = { s with gpr := t.gpr, pc := s.nextPc }) ∧
    (s.mem.wf = true → s.alignFaultMultiple (s.trunc ea) = false →
      (∀ k, k < count → s.available .store (word k) 4 = true) →
      ∃ t, exec (.stmw r ra d) s = .next t ∧
        (∀ q : RegNum, r.toNat ≤ q.toNat →
          t.bigEndianValue (word (q.toNat - r.toNat)) 4 = (lowWord (s.gprOf q)).toNat) ∧
        s.StoredAt t ea (4 * count) ∧ t = { s with mem := t.mem, stored := t.stored, pc := s.nextPc })

/-- lswi and lswx load `n` bytes, four to a register from RT up (modulo 32), into the low words from the left; bytes not
filled and high words are 0; other registers are unchanged.  lswx with n = 0 leaves RT free.  A range that includes RA, or for
lswx RA or RB, is an invalid form (42_fx_multiple_string.md R301, R311, R312).  Choice: that form raises IllegalInstruction
(the spec's decision D4; log entry 12). -/
def Obligations.LoadStringResults : Prop :=
  ∀ (s : State) (rt ra rb : RegNum) (nb : BitVec 5), s.env.le = false →
    let loads (res : Res) (ea : DWord) (n : Nat) : Prop :=
      (∀ j, j < n → s.available .load (ea + BitVec.ofNat 64 j) 1 = true) →
      ∃ t, res = .next t ∧
        (∀ q : RegNum, let k := (q - rt).toNat
          if 4 * k < n then
            fld (t.gprOf q) 0 32 = 0 ∧
              ∀ i, i < 4 → fld (t.gprOf q) (32 + 8 * i) 8 =
                if 4 * k + i < n then s.byteAt (ea + BitVec.ofNat 64 (4 * k + i)) else 0
          else t.gprOf q = s.gprOf q) ∧
        s.SameBytes t ∧ t = { s with gpr := t.gpr, pc := s.nextPc }
    let inRange (q : RegNum) (n : Nat) : Prop := 4 * (q - rt).toNat < n
    let immediate := if nb = 0 then 32 else nb.toNat
    let count := (fld s.xer 57 7).toNat
    let eaI := if ra = 0 then 0 else s.gprOf ra
    let eaX := eaI + s.gprOf rb
    (¬inRange ra immediate → loads (exec (.lswi rt ra nb) s) eaI immediate) ∧
    (inRange ra immediate → RaisesIllegal (exec (.lswi rt ra nb) s) s) ∧
    (rt ≠ ra → rt ≠ rb → ¬inRange ra count → ¬inRange rb count → count ≠ 0 →
      loads (exec (.lswx rt ra rb) s) eaX count) ∧
    (rt ≠ ra → rt ≠ rb → count = 0 →
      ∃ t, exec (.lswx rt ra rb) s = .next t ∧ s.OtherGprs t rt ∧ s.SameBytes t ∧
        t = { s with gpr := t.gpr, pc := s.nextPc, undef := t.undef }) ∧
    (rt = ra ∨ rt = rb ∨ inRange ra count ∨ inRange rb count → RaisesIllegal (exec (.lswx rt ra rb) s) s)

/-- stswi and stswx store `n` bytes from the low words of the registers from RS up (modulo 32)
(42_fx_multiple_string.md R301, R313, R314). -/
def Obligations.StoreStringResults : Prop :=
  ∀ (s : State) (rs ra rb : RegNum) (nb : BitVec 5), s.env.le = false → s.mem.wf = true →
    let stores (res : Res) (ea : DWord) (n : Nat) : Prop :=
      (∀ j, j < n → s.available .store (ea + BitVec.ofNat 64 j) 1 = true) →
      ∃ t, res = .next t ∧
        (∀ j, j < n → t.byteAt (ea + BitVec.ofNat 64 j) =
          fld (s.gprOf (rs + BitVec.ofNat 5 (j / 4))) (32 + 8 * (j % 4)) 8) ∧
        s.StoredAt t ea n ∧ t = { s with mem := t.mem, stored := t.stored, pc := s.nextPc }
    let base := if ra = 0 then 0 else s.gprOf ra
    stores (exec (.stswi rs ra nb) s) base (if nb = 0 then 32 else nb.toNat) ∧
    stores (exec (.stswx rs ra rb) s) (base + s.gprOf rb) (fld s.xer 57 7).toNat

/-! ## Special registers and Condition Register moves -/

/-- mtspr and mfspr move XER, LR and CTR whole, but that a reserved XER bit reads 0 if it holds 0 and is free if it holds 1
(46_fx_sysreg.md R481 to R483, 10_state.md R58).  Choice: any other SPR number raises IllegalInstruction, one of three outcomes
the source allows (the spec's decision D19; log entry 12). -/
def Obligations.SpecialRegisterResults : Prop :=
  ∀ (s : State) (r : RegNum) (spr : BitVec 10),
    exec (.mtspr r 1) s = .next { s with xer := s.gprOf r, pc := s.nextPc } ∧
    exec (.mtspr r 8) s = .next { s with lr := s.gprOf r, pc := s.nextPc } ∧
    exec (.mtspr r 9) s = .next { s with ctr := s.gprOf r, pc := s.nextPc } ∧
    WritesGpr (exec (.mfspr r 8) s) s r s.lr false ∧
    WritesGpr (exec (.mfspr r 9) s) s r s.ctr false ∧
    (∃ t, exec (.mfspr r 1) s = .next t ∧
      (∀ i, i < 64 → (32 ≤ i ∧ i ≤ 34) ∨ 57 ≤ i → bitAt (t.gprOf r) i = bitAt s.xer i) ∧
      (∀ i, i < 64 → bitAt s.xer i = false → bitAt (t.gprOf r) i = false) ∧
      t.cr = s.cr ∧ t.xer = s.xer ∧ s.FixedPoint t r) ∧
    (spr ≠ 1 → spr ≠ 8 → spr ≠ 9 →
      RaisesIllegal (exec (.mtspr r spr) s) s ∧ RaisesIllegal (exec (.mfspr r spr) s) s)

/-- mtcrf writes the fields FXM selects, mfcr reads all of CR; mtocrf and mfocrf move the one field selected, and with any
other FXM leave CR or RT free; mcrxr, where it is provided, moves XER[32:35] to a CR field and clears it
(46_fx_sysreg.md R484, R486, 49_optional.md R672, R689).  What mfocrf does is the spec's from general
knowledge (49_optional.md R673; log entry 9). -/
def Obligations.ConditionRegisterMoves : Prop :=
  ∀ (s : State) (r : RegNum) (fxm : BitVec 8) (n bf : BitVec 3),
    let one : BitVec 8 := (128 : BitVec 8) >>> n.toNat
    (∃ t, exec (.mtcrf r fxm) s = .next t ∧
      (∀ m : BitVec 3, t.crField m =
        if bitAt fxm m.toNat then fld (s.gprOf r) (32 + 4 * m.toNat) 4 else s.crField m) ∧
      t = { s with cr := t.cr, pc := s.nextPc }) ∧
    WritesGpr (exec (.mfcr r) s) s r (s.cr.setWidth 64) false ∧
    (s.env.hasMtocrfMfocrf = true →
      (∃ t, exec (.mtocrf r one) s = .next t ∧ t.crField n = fld (s.gprOf r) (32 + 4 * n.toNat) 4 ∧
        s.OtherCrFields t n ∧ t = { s with cr := t.cr, pc := s.nextPc }) ∧
      (∃ t, exec (.mtocrf r fxm) s = .next t ∧
        t = { s with cr := t.cr, pc := s.nextPc, undef := t.undef }) ∧
      (∃ t, exec (.mfocrf r one) s = .next t ∧ fld (t.gprOf r) (32 + 4 * n.toNat) 4 = s.crField n ∧
        t.cr = s.cr ∧ t.xer = s.xer ∧ s.FixedPoint t r) ∧
      (∃ t, exec (.mfocrf r fxm) s = .next t ∧ t.cr = s.cr ∧ t.xer = s.xer ∧ s.FixedPoint t r)) ∧
    (s.env.hasMcrxr = true → ∃ t, exec (.mcrxr bf) s = .next t ∧
      bitAt t.cr (4 * bf.toNat) = s.so ∧ bitAt t.cr (4 * bf.toNat + 1) = s.ov ∧
      bitAt t.cr (4 * bf.toNat + 2) = s.ca ∧ (bitAt s.xer 35 = false → bitAt t.cr (4 * bf.toNat + 3) = false) ∧
      s.OtherCrFields t bf ∧ fld t.xer 32 4 = 0 ∧ SameOutside 0xF0000000 s.xer t.xer ∧
      t = { s with cr := t.cr, xer := t.xer, pc := s.nextPc, undef := t.undef })

/-- An optional instruction that is not provided raises IllegalInstruction (30_encoding.md R168, 49_optional.md R670, R674,
R688; log entry 25). -/
def Obligations.AbsentInstructionsAreIllegal : Prop :=
  ∀ (s : State) (a b c d : RegNum) (fxm : BitVec 8) (bf : BitVec 3) (rc : Bool),
    (s.env.hasMtocrfMfocrf = false →
      RaisesIllegal (exec (.mtocrf a fxm) s) s ∧ RaisesIllegal (exec (.mfocrf a fxm) s) s) ∧
    (s.env.hasMcrxr = false → RaisesIllegal (exec (.mcrxr bf) s) s) ∧
    (s.env.hasFpGeneral = false →
      RaisesIllegal (exec (.fsqrt a b rc) s) s ∧ RaisesIllegal (exec (.fsqrts a b rc) s) s) ∧
    (s.env.hasFpGraphics = false →
      RaisesIllegal (exec (.fre a b rc) s) s ∧ RaisesIllegal (exec (.fres a b rc) s) s ∧
      RaisesIllegal (exec (.frsqrte a b rc) s) s ∧ RaisesIllegal (exec (.frsqrtes a b rc) s) s ∧
      RaisesIllegal (exec (.fsel a b c d rc) s) s)

/-! ## Floating-point loads, stores, moves -/

/-- The conversions between the formats are inverse to each other on what single format represents
(48_fp_load_store_move.md R590). -/
def Obligations.SingleDoubleInverse : Prop :=
  (∀ w : Word, repSingle (toDouble w) = true ∧ toSingle (toDouble w) = some w) ∧
  ∀ x : DWord, repSingle x = true → ∃ w, toSingle x = some w ∧ toDouble w = x

/-- The floating-point loads: lfs and its kin convert to double format, lfd and its kin copy; RA = 0 is invalid with update;
FPSCR, CR and XER are unchanged (48_fp_load_store_move.md R580 to R589, R608).  Choices: the invalid form raises
IllegalInstruction (the spec's decision D4; log entry 12); the ghost bit that says which values stfiwx may store is
bookkeeping (log entry 21). -/
def Obligations.FloatingLoadResults : Prop :=
  ∀ (s : State) (frt ra rb : RegNum) (d : BitVec 16),
    let base := if ra = 0 then 0 else s.gprOf ra
    let disp : DWord := d.signExtend 64
    let single (ea : DWord) : DWord := toDouble (BitVec.ofNat 32 (s.operandValue ea 4))
    let double (ea : DWord) : DWord := BitVec.ofNat 64 (s.operandValue ea 8)
    let loads (res : Res) (ea v : DWord) (sp upd : Bool) : Prop := ∃ t, res = .next t ∧ t.fprOf frt = v ∧
      t.singleOf frt = sp ∧ s.OtherFprs t frt ∧ s.SameBytes t ∧
      (∀ q, t.gprOf q = if upd && q == ra then ea else s.gprOf q) ∧
      t = { s with fpr := t.fpr, single := t.single, gpr := t.gpr, pc := s.nextPc }
    (s.Accessible .load (base + disp) 4 →
      loads (exec (.lfs frt ra d) s) (base + disp) (single (base + disp)) true false) ∧
    (s.Accessible .load (base + s.gprOf rb) 4 →
      loads (exec (.lfsx frt ra rb) s) (base + s.gprOf rb) (single (base + s.gprOf rb)) true false) ∧
    (s.Accessible .load (base + disp) 8 →
      loads (exec (.lfd frt ra d) s) (base + disp) (double (base + disp)) false false) ∧
    (s.Accessible .load (base + s.gprOf rb) 8 →
      loads (exec (.lfdx frt ra rb) s) (base + s.gprOf rb) (double (base + s.gprOf rb)) false false) ∧
    (ra ≠ 0 →
      (s.Accessible .load (base + disp) 4 →
        loads (exec (.lfsu frt ra d) s) (base + disp) (single (base + disp)) true true) ∧
      (s.Accessible .load (base + s.gprOf rb) 4 →
        loads (exec (.lfsux frt ra rb) s) (base + s.gprOf rb) (single (base + s.gprOf rb)) true true) ∧
      (s.Accessible .load (base + disp) 8 →
        loads (exec (.lfdu frt ra d) s) (base + disp) (double (base + disp)) false true) ∧
      (s.Accessible .load (base + s.gprOf rb) 8 →
        loads (exec (.lfdux frt ra rb) s) (base + s.gprOf rb) (double (base + s.gprOf rb)) false true)) ∧
    (ra = 0 →
      RaisesIllegal (exec (.lfsu frt ra d) s) s ∧ RaisesIllegal (exec (.lfsux frt ra rb) s) s ∧
      RaisesIllegal (exec (.lfdu frt ra d) s) s ∧ RaisesIllegal (exec (.lfdux frt ra rb) s) s)

/-- The floating-point stores: of double format; of single format, the word that `SINGLE` defines, or a free word where it
defines none; of the integer word, FRS[32:63], or a free word if FRS holds the product of a single-precision instruction
(48_fp_load_store_move.md R590, R600 to R608).  Choices: RA = 0 with update raises IllegalInstruction (the spec's decision D4;
log entry 12); one ghost bit per FPR decides whether stfiwx stores a free word (log entry 21, unsafe). -/
def Obligations.FloatingStoreResults : Prop :=
  ∀ (s : State) (frs ra rb : RegNum) (d : BitVec 16) (w : Word), s.mem.wf = true →
    let base := if ra = 0 then 0 else s.gprOf ra
    let x := s.fprOf frs
    let eaD := base + d.signExtend 64
    let eaX := base + s.gprOf rb
    let st (ea : DWord) (n v : Nat) (upd : Option RegNum) (res : Res) : Prop :=
      s.Accessible .store ea n → StoresOperand res s ea n v upd
    let single (ea : DWord) (upd : Option RegNum) (res : Res) : Prop :=
      (toSingle x = some w → st ea 4 w.toNat upd res) ∧
      (toSingle x = none → s.Accessible .store ea 4 → ∃ v, StoresOperand res s ea 4 v upd)
    single eaD none (exec (.stfs frs ra d) s) ∧ single eaX none (exec (.stfsx frs ra rb) s) ∧
    st eaD 8 x.toNat none (exec (.stfd frs ra d) s) ∧ st eaX 8 x.toNat none (exec (.stfdx frs ra rb) s) ∧
    (s.singleOf frs = false → st eaX 4 x.toNat none (exec (.stfiwx frs ra rb) s)) ∧
    (s.singleOf frs = true → s.Accessible .store eaX 4 →
      ∃ v, StoresOperand (exec (.stfiwx frs ra rb) s) s eaX 4 v none) ∧
    (ra ≠ 0 → single eaD (some ra) (exec (.stfsu frs ra d) s) ∧ single eaX (some ra) (exec (.stfsux frs ra rb) s) ∧
      st eaD 8 x.toNat (some ra) (exec (.stfdu frs ra d) s) ∧
      st eaX 8 x.toNat (some ra) (exec (.stfdux frs ra rb) s)) ∧
    (ra = 0 → RaisesIllegal (exec (.stfsu frs ra d) s) s ∧ RaisesIllegal (exec (.stfsux frs ra rb) s) s ∧
      RaisesIllegal (exec (.stfdu frs ra d) s) s ∧ RaisesIllegal (exec (.stfdux frs ra rb) s) s)

/-- The moves copy the 64 bits but for the sign, fsel copies one of two registers, treating both zeros and +Infinity as at
least 0 and a NaN as not; none alters the FPSCR (48_fp_load_store_move.md R610 to R614, 49_optional.md R686). -/
def Obligations.FloatingMoveResults : Prop :=
  ∀ (s : State) (frt fra frb frc : RegNum) (rc : Bool),
    let x := s.fprOf frb
    let moved (res : Res) (sign : Bool) (v : DWord) (sp : Bool) : Prop := ∃ t, res = .next t ∧
      bitAt (t.fprOf frt) 0 = sign ∧ fld (t.fprOf frt) 1 63 = fld v 1 63 ∧ t.singleOf frt = sp ∧
      t.fpscr = s.fpscr ∧ t.undef = s.undef ∧ s.FloatingPoint t frt rc s.event
    let a := s.fprOf fra
    let chosen := if isNaN a then x else if (fpVal a).num < 0 ∨ a = fpInf true then x else s.fprOf frc
    moved (exec (.fmr frt frb rc) s) (bitAt x 0) x (s.singleOf frb) ∧
    moved (exec (.fneg frt frb rc) s) (!bitAt x 0) x (s.singleOf frb) ∧
    moved (exec (.fabs frt frb rc) s) false x (s.singleOf frb) ∧
    moved (exec (.fnabs frt frb rc) s) true x (s.singleOf frb) ∧
    (s.env.hasFpGraphics = true →
      moved (exec (.fsel frt fra frb frc rc) s) (bitAt chosen 0) chosen false)

/-! ## FPSCR instructions -/

/-- mffs and mcrfs: a reserved FPSCR bit reads 0 if it holds 0; mcrfs clears the FX and exception bits it copies, and nothing
but the summaries follows (48_fp_instructions.md R656, R657, 10_state.md R58). -/
def Obligations.FpscrReadResults : Prop :=
  ∀ (s : State) (frt : RegNum) (bf bfa : BitVec 3) (rc : Bool),
    let reserved (i : Nat) : Bool := i == 20 || (i == 29 && !s.env.hasNiMode)
    (∃ t, exec (.mffs frt rc) s = .next t ∧ t.singleOf frt = false ∧ t.fpscr = s.fpscr ∧
      (∀ i, i < 32 → bitAt s.fpscr i = false ∨ reserved i = false →
        bitAt (t.fprOf frt) (32 + i) = bitAt s.fpscr i) ∧ s.FloatingPoint t frt rc s.event) ∧
    ∃ t, exec (.mcrfs bf bfa) s = .next t ∧
      (∀ i, i < 4 → bitAt s.fpscr (4 * bfa.toNat + i) = false ∨ reserved (4 * bfa.toNat + i) = false →
        bitAt t.cr (4 * bf.toNat + i) = bitAt s.fpscr (4 * bfa.toNat + i)) ∧
      s.OtherCrFields t bf ∧ FpscrSummaries t.fpscr ∧
      (∀ i, i < 32 → i ≠ 1 → i ≠ 2 → bitAt t.fpscr i =
        if i / 4 = bfa.toNat ∧ (i = 0 ∨ (3 ≤ i ∧ i ≤ 12) ∨ (21 ≤ i ∧ i ≤ 23)) then false else bitAt s.fpscr i) ∧
      t = { s with cr := t.cr, fpscr := t.fpscr, pc := s.nextPc, undef := t.undef }

/-- mtfsfi, mtfsf, mtfsb0, mtfsb1 write the bits they name but FEX and VX, which follow; only mtfsb1 sets FX by itself
(48_fp_instructions.md R655, R658 to R661).  Choices: the run ends with FloatingPointEnabled exactly when FEX is 1 afterwards
and exceptions are not ignored, which is the spec's reading of "causes", and the imprecise modes act as the precise one
(47_fp_model.md R534, decision D9; log entries 10, 14). -/
def Obligations.FpscrWriteResults : Prop :=
  ∀ (s : State) (bf : BitVec 3) (u : BitVec 4) (flm : BitVec 8) (frb : RegNum) (bt : BitVec 5) (rc : Bool),
    let written (res : Res) (f : Nat → Bool) : Prop := ∃ t, res = .next t ∧
      (∀ i, i < 32 → i ≠ 1 → i ≠ 2 → bitAt t.fpscr i = f i) ∧ FpscrSummaries t.fpscr ∧ s.Recorded1 t rc ∧
      t.event = s.enabledEvent (bitAt t.fpscr 1) ∧
      t = { s with cr := t.cr, fpscr := t.fpscr, pc := s.nextPc, event := t.event }
    let b := bt.toNat
    let exception := (3 ≤ b ∧ b ≤ 12) ∨ (21 ≤ b ∧ b ≤ 23)
    written (exec (.mtfsfi bf u rc) s)
      (fun i => if i / 4 = bf.toNat then bitAt u (i % 4) else bitAt s.fpscr i) ∧
    written (exec (.mtfsf flm frb rc) s)
      (fun i => if bitAt flm (i / 4) then bitAt (s.fprOf frb) (32 + i) else bitAt s.fpscr i) ∧
    written (exec (.mtfsb0 bt rc) s) (fun i => if i = b then false else bitAt s.fpscr i) ∧
    written (exec (.mtfsb1 bt rc) s) (fun i =>
      if i = b then true
      else if i = 0 ∧ exception ∧ bitAt s.fpscr b = false then true else bitAt s.fpscr i)

/-! ## Floating-point arithmetic -/

/-- A computational instruction with a target FPR completes on any operands: it writes at most FRT, its FPSCR status bits and
CR Field 1; bits 20 and 21 and the control bits of the FPSCR, storage and every other register are unchanged; an event can
only be FloatingPointEnabled, with FEX = 1 and exceptions not ignored (10_state.md R64, R65, R70, R73; 47_fp_model.md R555).
Choice: that event comes at this instruction in the imprecise modes too (47_fp_model.md R534, decision D9; log entries 10,
14). -/
def Obligations.ComputationalInstructionsComplete : Prop :=
  ∀ (s : State) (frt fra frb frc : RegNum) (rc : Bool), s.Ieee →
    let completes (res : Res) : Prop := ∃ t, res = .next t ∧ s.OtherFprs t frt ∧
      (if rc then s.OtherCrFields t 1 else t.cr = s.cr) ∧ FpscrSummaries t.fpscr ∧
      fld t.fpscr 20 2 = fld s.fpscr 20 2 ∧ fld t.fpscr 24 8 = fld s.fpscr 24 8 ∧ s.SameBytes t ∧
      (t.event = s.event ∨ bitAt t.fpscr 1 = true ∧ s.fpTrapsOn = true ∧
        t.event = some (.floatingPointEnabled s.pc s.insn)) ∧
      t = { s with fpr := t.fpr, single := t.single, fpscr := t.fpscr, cr := t.cr, pc := s.nextPc, undef := t.undef,
                   event := t.event }
    completes (exec (.fadd frt fra frb rc) s) ∧ completes (exec (.fadds frt fra frb rc) s) ∧
    completes (exec (.fsub frt fra frb rc) s) ∧ completes (exec (.fsubs frt fra frb rc) s) ∧
    completes (exec (.fmul frt fra frc rc) s) ∧ completes (exec (.fmuls frt fra frc rc) s) ∧
    completes (exec (.fdiv frt fra frb rc) s) ∧ completes (exec (.fdivs frt fra frb rc) s) ∧
    completes (exec (.fmadd frt fra frb frc rc) s) ∧ completes (exec (.fmadds frt fra frb frc rc) s) ∧
    completes (exec (.fmsub frt fra frb frc rc) s) ∧ completes (exec (.fmsubs frt fra frb frc rc) s) ∧
    completes (exec (.fnmadd frt fra frb frc rc) s) ∧ completes (exec (.fnmadds frt fra frb frc rc) s) ∧
    completes (exec (.fnmsub frt fra frb frc rc) s) ∧ completes (exec (.fnmsubs frt fra frb frc rc) s) ∧
    completes (exec (.frsp frt frb rc) s) ∧ completes (exec (.fctid frt frb rc) s) ∧
    completes (exec (.fctidz frt frb rc) s) ∧ completes (exec (.fctiw frt frb rc) s) ∧
    completes (exec (.fctiwz frt frb rc) s) ∧ completes (exec (.fcfid frt frb rc) s) ∧
    (s.env.hasFpGeneral = true → completes (exec (.fsqrt frt frb rc) s) ∧ completes (exec (.fsqrts frt frb rc) s)) ∧
    (s.env.hasFpGraphics = true → completes (exec (.fre frt frb rc) s) ∧ completes (exec (.fres frt frb rc) s) ∧
      completes (exec (.frsqrte frt frb rc) s) ∧ completes (exec (.frsqrtes frt frb rc) s))

/-- Round to Nearest takes the closer multiple of 2^k, the even one in a tie; the directed modes take the one on their side;
FR tells the increment and FI the inexactness (47_fp_model.md R520, R523).  `sig * 2^e` is rounded to units of
`2^(e + k)`. -/
def Obligations.RoundingModes : Prop :=
  ∀ (s : Bool) (sig k : Nat) (e : Int) (mode : BitVec 2),
    let r := roundQ s ⟨sig, e, false⟩ (e + k) mode
    let down := r.units * 2 ^ k ≤ sig ∧ sig < (r.units + 1) * 2 ^ k
    let up := sig ≤ r.units * 2 ^ k ∧ r.units * 2 ^ k < sig + 2 ^ k
    r.inexact = decide (r.units * 2 ^ k ≠ sig) ∧ r.inc = decide (sig < r.units * 2 ^ k) ∧
    (mode = 0 → 2 * sig ≤ (2 * r.units + 1) * 2 ^ k ∧ 2 * r.units * 2 ^ k ≤ 2 * sig + 2 ^ k ∧
      (2 * sig = (2 * r.units + 1) * 2 ^ k ∨ 2 * r.units * 2 ^ k = 2 * sig + 2 ^ k → r.inexact = true →
        r.units % 2 = 0)) ∧
    (mode = 1 → down) ∧ (mode = 2 → if s then down else up) ∧ (mode = 3 → if s then up else down)

/-- Add, subtract, multiply of finite operands whose exact result is a normalized number of the precision deliver it, with no
exception, in every rounding mode (47_fp_model.md R555 to R558, 48_fp_instructions.md R616 to R621). -/
def Obligations.ExactSumsAndProducts : Prop :=
  ∀ (s : State) (frt fra frb : RegNum) (rc : Bool) (x : DWord), s.Ieee → FpscrSummaries s.fpscr →
    let a := s.fprOf fra
    let b := s.fprOf frb
    isNaN a = false → isInf a = false → isNaN b = false → isInf b = false →
    let exactly (y : Machine.Dyadic) (dp sp : Res) : Prop := (fpVal x).same y →
      (NormalIn .dp x → DeliversExactly .dp dp s frt rc x) ∧
      (NormalIn .sp x → repSingle a = true → repSingle b = true → DeliversExactly .sp sp s frt rc x)
    exactly ((fpVal a).add (fpVal b)) (exec (.fadd frt fra frb rc) s) (exec (.fadds frt fra frb rc) s) ∧
    exactly ((fpVal a).add ⟨-(fpVal b).num, (fpVal b).exp⟩)
      (exec (.fsub frt fra frb rc) s) (exec (.fsubs frt fra frb rc) s) ∧
    exactly ((fpVal a).mul (fpVal b)) (exec (.fmul frt fra frb rc) s) (exec (.fmuls frt fra frb rc) s)

/-- The multiply-adds of finite operands whose exact result is a normalized number of the precision deliver it, negated for
the Negative forms; the product is not rounded (48_fp_instructions.md R630 to R639). -/
def Obligations.ExactMultiplyAdds : Prop :=
  ∀ (s : State) (frt fra frb frc : RegNum) (rc : Bool) (x : DWord), s.Ieee → FpscrSummaries s.fpscr →
    let a := s.fprOf fra
    let b := s.fprOf frb
    let c := s.fprOf frc
    isNaN a = false → isInf a = false → isNaN b = false → isInf b = false → isNaN c = false → isInf c = false →
    let exactly (y : Machine.Dyadic) (v : DWord) (dp sp : Res) : Prop := (fpVal x).same y →
      (NormalIn .dp x → DeliversExactly .dp dp s frt rc v) ∧
      (NormalIn .sp x → repSingle a = true → repSingle b = true → repSingle c = true →
        DeliversExactly .sp sp s frt rc v)
    let p := (fpVal a).mul (fpVal c)
    let sum := p.add (fpVal b)
    let difference := p.add ⟨-(fpVal b).num, (fpVal b).exp⟩
    exactly sum x (exec (.fmadd frt fra frb frc rc) s) (exec (.fmadds frt fra frb frc rc) s) ∧
    exactly difference x (exec (.fmsub frt fra frb frc rc) s) (exec (.fmsubs frt fra frb frc rc) s) ∧
    exactly sum (fpNegated x) (exec (.fnmadd frt fra frb frc rc) s) (exec (.fnmadds frt fra frb frc rc) s) ∧
    exactly difference (fpNegated x) (exec (.fnmsub frt fra frb frc rc) s) (exec (.fnmsubs frt fra frb frc rc) s)

/-- Divide and square root: a normalized number `x` with `x * b = a`, or a positive one with `x * x = b`, is delivered exactly
(47_fp_model.md R559, 49_optional.md R676 to R678, 48_fp_instructions.md R622, R623). -/
def Obligations.ExactQuotientsAndRoots : Prop :=
  ∀ (s : State) (frt fra frb : RegNum) (rc : Bool) (x : DWord), s.Ieee → FpscrSummaries s.fpscr →
    let a := s.fprOf fra
    let b := s.fprOf frb
    isNaN a = false → isInf a = false → isNaN b = false → isInf b = false → isZero b = false →
    ((fpVal a).same ((fpVal x).mul (fpVal b)) →
      (NormalIn .dp x → DeliversExactly .dp (exec (.fdiv frt fra frb rc) s) s frt rc x) ∧
      (NormalIn .sp x → repSingle a = true → repSingle b = true →
        DeliversExactly .sp (exec (.fdivs frt fra frb rc) s) s frt rc x)) ∧
    (s.env.hasFpGeneral = true → fpSign x = false → (fpVal b).same ((fpVal x).mul (fpVal x)) →
      (NormalIn .dp x → DeliversExactly .dp (exec (.fsqrt frt frb rc) s) s frt rc x) ∧
      (NormalIn .sp x → repSingle b = true → DeliversExactly .sp (exec (.fsqrts frt frb rc) s) s frt rc x))

/-- Infinities and zeros without an invalid combination give exact results, in both precisions: sums, products, quotients,
roots, and the multiply-adds, whose result the Negative forms negate.  An exact zero sum of operands of one sign has that sign;
any other is -0 only in Round toward -Infinity (47_fp_model.md R509, R514, R557 to R559; 48_fp_instructions.md R630, R631;
49_optional.md R676). -/
def Obligations.InfinitiesAndZeros : Prop :=
  ∀ (s : State) (frt fra frb frc : RegNum) (rc : Bool), s.Ieee → FpscrSummaries s.fpscr →
    let a := s.fprOf fra
    let b := s.fprOf frb
    let c := s.fprOf frc
    let finite (x : DWord) : Prop := isNaN x = false ∧ isInf x = false
    let exactly (dp sp : Res) (xs : List DWord) (v : DWord) : Prop :=
      DeliversExactly .dp dp s frt rc v ∧ (xs.all repSingle = true → DeliversExactly .sp sp s frt rc v)
    let zeroSum : DWord := fpZero (fld s.fpscr 30 2 == 3)
    let sum (y : DWord) (dp sp : Res) : Prop :=
      (isInf a = true → isNaN b = false → (isInf b = true → fpSign y = fpSign a) → exactly dp sp [a, b] a) ∧
      (finite a → isInf b = true → exactly dp sp [a, b] y) ∧
      (finite a → y = fpNegated a → exactly dp sp [a, b] zeroSum) ∧
      (isZero a = true → y = a → exactly dp sp [a, b] a)
    let product (v : Bool → DWord) : Prop :=
      exactly (exec (.fmul frt fra frc rc) s) (exec (.fmuls frt fra frc rc) s) [a, c] (v (fpSign a != fpSign c))
    let quotient (v : Bool → DWord) : Prop :=
      exactly (exec (.fdiv frt fra frb rc) s) (exec (.fdivs frt fra frb rc) s) [a, b] (v (fpSign a != fpSign b))
    let fused (sub neg : Bool) (dp sp : Res) : Prop :=
      let y := if sub then fpNegated b else b
      let sign := fpSign a != fpSign c
      let delivers (v : DWord) : Prop := exactly dp sp [a, b, c] (if neg then fpNegated v else v)
      (isInf a = true ∨ isInf c = true → isNaN a = false → isNaN c = false → isZero a = false → isZero c = false →
        isNaN b = false → (isInf b = true → fpSign y = sign) → delivers (fpInf sign)) ∧
      (finite a → finite c → isInf b = true → delivers y) ∧
      (finite a → finite b → finite c → fpRat a * fpRat c + fpRat y = 0 →
        delivers (if isZero b = true ∧ fpSign y = sign then fpZero sign else zeroSum))
    sum b (exec (.fadd frt fra frb rc) s) (exec (.fadds frt fra frb rc) s) ∧
    sum (fpNegated b) (exec (.fsub frt fra frb rc) s) (exec (.fsubs frt fra frb rc) s) ∧
    (isInf a = true → isNaN c = false → isZero c = false → product fpInf) ∧
    (isInf c = true → isNaN a = false → isZero a = false → product fpInf) ∧
    (isZero a = true → finite c → product fpZero) ∧ (isZero c = true → finite a → product fpZero) ∧
    (isInf a = true → finite b → quotient fpInf) ∧ (finite a → isInf b = true → quotient fpZero) ∧
    (isZero a = true → finite b → isZero b = false → quotient fpZero) ∧
    (s.env.hasFpGeneral = true → isZero b = true ∨ b = fpInf false →
      exactly (exec (.fsqrt frt frb rc) s) (exec (.fsqrts frt frb rc) s) [b] b) ∧
    fused false false (exec (.fmadd frt fra frb frc rc) s) (exec (.fmadds frt fra frb frc rc) s) ∧
    fused true false (exec (.fmsub frt fra frb frc rc) s) (exec (.fmsubs frt fra frb frc rc) s) ∧
    fused false true (exec (.fnmadd frt fra frb frc rc) s) (exec (.fnmadds frt fra frb frc rc) s) ∧
    fused true true (exec (.fnmsub frt fra frb frc rc) s) (exec (.fnmsubs frt fra frb frc rc) s)

/-- Sums, products and multiply-adds of finite operands whose exact result is not 0, in both precisions: it is rounded once as
RN says, with FR, FI and XX; Overflow and Underflow, disabled and enabled, deliver what the spec's tables say; an enabled
exception is caused as they say.  The Negative forms negate after rounding (47_fp_model.md R546 to R554, R556 to R558;
48_fp_instructions.md R616 to R621, R630 to R639).  Choice: an enabled exception ends the run at this instruction in every mode
but Ignore (R534, decision D9; log entries 10, 14). -/
def Obligations.RoundedSumsAndProducts : Prop :=
  ∀ (s : State) (frt fra frb frc : RegNum) (rc : Bool), s.Ieee →
    let a := s.fprOf fra
    let b := s.fprOf frb
    let c := s.fprOf frc
    let x : ℝ := fpRat a
    let y : ℝ := fpRat b
    let z : ℝ := fpRat c
    let finite (x : DWord) : Prop := isNaN x = false ∧ isInf x = false
    let rounded (dp sp : Res) (xs : List DWord) (neg : Bool) (v : ℝ) : Prop := v ≠ 0 →
      DeliversRounded .dp neg dp s frt rc v ∧ (xs.all repSingle = true → DeliversRounded .sp neg sp s frt rc v)
    finite a →
    (finite b →
      rounded (exec (.fadd frt fra frb rc) s) (exec (.fadds frt fra frb rc) s) [a, b] false (x + y) ∧
      rounded (exec (.fsub frt fra frb rc) s) (exec (.fsubs frt fra frb rc) s) [a, b] false (x - y)) ∧
    (finite c → rounded (exec (.fmul frt fra frc rc) s) (exec (.fmuls frt fra frc rc) s) [a, c] false (x * z)) ∧
    (finite b → finite c →
      rounded (exec (.fmadd frt fra frb frc rc) s) (exec (.fmadds frt fra frb frc rc) s) [a, b, c] false (x * z + y) ∧
      rounded (exec (.fmsub frt fra frb frc rc) s) (exec (.fmsubs frt fra frb frc rc) s) [a, b, c] false (x * z - y) ∧
      rounded (exec (.fnmadd frt fra frb frc rc) s) (exec (.fnmadds frt fra frb frc rc) s) [a, b, c] true (x * z + y) ∧
      rounded (exec (.fnmsub frt fra frb frc rc) s) (exec (.fnmsubs frt fra frb frc rc) s) [a, b, c] true (x * z - y))

/-- Quotients of nonzero numbers and square roots of positive ones, in both precisions: the exact real is rounded once, with
Overflow, Underflow and Inexact as for sums (47_fp_model.md R546 to R554, R556, R559; 48_fp_instructions.md R622, R623;
49_optional.md R676 to R678).  Choice: an enabled exception ends the run at this instruction in every mode but Ignore (R534,
decision D9; log entries 10, 14). -/
def Obligations.RoundedQuotientsAndRoots : Prop :=
  ∀ (s : State) (frt fra frb : RegNum) (rc : Bool), s.Ieee →
    let a := s.fprOf fra
    let b := s.fprOf frb
    let rounded (dp sp : Res) (xs : List DWord) (v : ℝ) : Prop :=
      DeliversRounded .dp false dp s frt rc v ∧ (xs.all repSingle = true → DeliversRounded .sp false sp s frt rc v)
    isNumber b = true →
    (isNumber a = true →
      rounded (exec (.fdiv frt fra frb rc) s) (exec (.fdivs frt fra frb rc) s) [a, b] ((fpRat a : ℝ) / fpRat b)) ∧
    (s.env.hasFpGeneral = true → fpSign b = false →
      rounded (exec (.fsqrt frt frb rc) s) (exec (.fsqrts frt frb rc) s) [b] √(fpRat b : ℝ))

/-- Zero Divide: with ZE = 0 the result is an infinity of the exclusive-or of the signs; with ZE = 1 FRT and FPRF are
unchanged and the exception is caused; ZX is set and FR = FI = 0 in both (47_fp_model.md R543 to R545).  Choice: with ZE = 1
the event comes at this instruction in every mode but Ignore (R534, decision D9; log entries 10, 14). -/
def Obligations.ZeroDivideResults : Prop :=
  ∀ (s : State) (frt fra frb : RegNum) (rc : Bool), s.Ieee →
    let a := s.fprOf fra
    let b := s.fprOf frb
    isNumber a = true → isZero b = true →
    let divides (fmt : FpFormat) (res : Res) : Prop := ∃ t, res = .next t ∧
      SetsException s.fpscr t.fpscr (fpBit 5) ∧ bitAt t.fpscr 13 = false ∧ bitAt t.fpscr 14 = false ∧
      (bitAt s.fpscr 27 = false → t.fprOf frt = fpInf (fpSign a != fpSign b) ∧
        t.singleOf frt = (fmt.p == 24) ∧ fld t.fpscr 15 5 = (if fpSign a != fpSign b then 0b01001 else 0b00101)) ∧
      (bitAt s.fpscr 27 = true → t.fprOf frt = s.fprOf frt ∧ t.singleOf frt = s.singleOf frt ∧
        fld t.fpscr 15 5 = fld s.fpscr 15 5) ∧
      s.FloatingPoint t frt rc (s.enabledEvent (bitAt s.fpscr 27))
    divides .dp (exec (.fdiv frt fra frb rc) s) ∧
    (repSingle a = true → divides .sp (exec (.fdivs frt fra frb rc) s))

/-- An operand that is a NaN gives the first NaN in the order FRA, FRB, FRC with its high-order fraction bit set, its sign kept
by the subtracting and negating forms too; so it is with Invalid Operation disabled, and enabled where the operation is not
invalid, which only a Signaling NaN or, in a multiply-add, infinity times zero makes it (47_fp_model.md R511, R542, R555;
48_fp_instructions.md R630, R631; 49_optional.md R676). -/
def Obligations.NaNOperands : Prop :=
  ∀ (s : State) (frt fra frb frc : RegNum) (rc : Bool), s.Ieee →
    let a := s.fprOf fra
    let b := s.fprOf frb
    let c := s.fprOf frc
    let pick (xs : List DWord) : DWord := quiet ((xs.find? isNaN).getD 0)
    let times : Bool := (isInf a && isZero c) || (isZero a && isInf c)
    let gives (fmt : FpFormat) (res : Res) (xs : List DWord) (imz : Bool) : Prop := xs.any isNaN = true →
      (fmt.p = 24 → xs.all repSingle = true) → bitAt s.fpscr 24 = false ∨ (xs.any isSNaN = false ∧ imz = false) →
      ∃ t, res = .next t ∧ t.fprOf frt = pick xs ∧
        t.singleOf frt = (fmt.p == 24) ∧ fld t.fpscr 13 7 = 0b0010001 ∧ FpscrSummaries t.fpscr ∧
        SameOutside (0xE007F000 ||| (if xs.any isSNaN then fpBit 7 else 0) ||| if imz then fpBit 11 else 0)
          s.fpscr t.fpscr ∧
        bitAt t.fpscr 7 = (bitAt s.fpscr 7 || xs.any isSNaN) ∧ bitAt t.fpscr 11 = (bitAt s.fpscr 11 || imz) ∧
        s.FloatingPoint t frt rc s.event
    gives .dp (exec (.fadd frt fra frb rc) s) [a, b] false ∧ gives .sp (exec (.fadds frt fra frb rc) s) [a, b] false ∧
    gives .dp (exec (.fsub frt fra frb rc) s) [a, b] false ∧ gives .sp (exec (.fsubs frt fra frb rc) s) [a, b] false ∧
    gives .dp (exec (.fmul frt fra frc rc) s) [a, c] false ∧ gives .sp (exec (.fmuls frt fra frc rc) s) [a, c] false ∧
    gives .dp (exec (.fdiv frt fra frb rc) s) [a, b] false ∧ gives .sp (exec (.fdivs frt fra frb rc) s) [a, b] false ∧
    gives .dp (exec (.fmadd frt fra frb frc rc) s) [a, b, c] times ∧
    gives .sp (exec (.fmadds frt fra frb frc rc) s) [a, b, c] times ∧
    gives .dp (exec (.fmsub frt fra frb frc rc) s) [a, b, c] times ∧
    gives .sp (exec (.fmsubs frt fra frb frc rc) s) [a, b, c] times ∧
    gives .dp (exec (.fnmadd frt fra frb frc rc) s) [a, b, c] times ∧
    gives .sp (exec (.fnmadds frt fra frb frc rc) s) [a, b, c] times ∧
    gives .dp (exec (.fnmsub frt fra frb frc rc) s) [a, b, c] times ∧
    gives .sp (exec (.fnmsubs frt fra frb frc rc) s) [a, b, c] times ∧
    (s.env.hasFpGeneral = true → gives .dp (exec (.fsqrt frt frb rc) s) [b] false ∧
      gives .sp (exec (.fsqrts frt frb rc) s) [b] false)

/-- An invalid add, subtract, multiply, divide, multiply-add or square root, in both precisions, sets the bits of its
exceptions; disabled, it delivers the first NaN operand quieted or, where no operand is a NaN, 0x7FF8000000000000; enabled, FRT
and FPRF are as they were; FR = FI = 0 (47_fp_model.md R511, R531, R540 to R542; 48_fp_instructions.md R630, R631;
49_optional.md R676).  Choice: enabled, the event comes at this instruction in every mode but Ignore (R534, decision D9; log
entries 10, 14). -/
def Obligations.InvalidOperationResults : Prop :=
  ∀ (s : State) (frt fra frb frc : RegNum) (rc : Bool), s.Ieee →
    let a := s.fprOf fra
    let b := s.fprOf frb
    let c := s.fprOf frc
    let bit (p : Bool) (i : Nat) : Word := if p then fpBit i else 0
    let invalid (dp sp : Res) (xs : List DWord) (others : Word) : Prop :=
      let vx := bit (xs.any isSNaN) 7 ||| others
      let nan : DWord := ((xs.find? isNaN).map quiet).getD 0x7FF8000000000000
      vx ≠ 0 → InvalidOperation .dp dp s frt rc vx nan ∧
        (xs.all repSingle = true → InvalidOperation .sp sp s frt rc vx nan)
    let infinities : Bool := isInf a && isInf b
    let times : Bool := (isInf a && isZero c) || (isZero a && isInf c)
    let sign : Bool := fpSign a != fpSign c
    let product : Bool := (isInf a || isInf c) && !isNaN a && !isNaN c && !times
    let fused (sub : Bool) (dp sp : Res) : Prop := invalid dp sp [a, b, c]
      (bit times 11 ||| bit (product && isInf b && ((fpSign b != sub) != sign)) 8)
    invalid (exec (.fadd frt fra frb rc) s) (exec (.fadds frt fra frb rc) s) [a, b]
      (bit (infinities && fpSign a != fpSign b) 8) ∧
    invalid (exec (.fsub frt fra frb rc) s) (exec (.fsubs frt fra frb rc) s) [a, b]
      (bit (infinities && fpSign a == fpSign b) 8) ∧
    invalid (exec (.fmul frt fra frc rc) s) (exec (.fmuls frt fra frc rc) s) [a, c] (bit times 11) ∧
    invalid (exec (.fdiv frt fra frb rc) s) (exec (.fdivs frt fra frb rc) s) [a, b]
      (bit infinities 9 ||| bit (isZero a && isZero b) 10) ∧
    fused false (exec (.fmadd frt fra frb frc rc) s) (exec (.fmadds frt fra frb frc rc) s) ∧
    fused true (exec (.fmsub frt fra frb frc rc) s) (exec (.fmsubs frt fra frb frc rc) s) ∧
    fused false (exec (.fnmadd frt fra frb frc rc) s) (exec (.fnmadds frt fra frb frc rc) s) ∧
    fused true (exec (.fnmsub frt fra frb frc rc) s) (exec (.fnmsubs frt fra frb frc rc) s) ∧
    (s.env.hasFpGeneral = true →
      invalid (exec (.fsqrt frt frb rc) s) (exec (.fsqrts frt frb rc) s) [b]
        (bit (fpSign b && !isNaN b && !isZero b) 22))

/-- A single-precision arithmetic instruction with an operand that single format does not represent goes on, with an undefined
result (47_fp_model.md R516).  Choices: FRT, exactly the FPSCR bits of the instruction's list and CR Field 1 are free, the rest
is unchanged (log entry 20, DEDUCED); the drawn FEX decides the event, in every mode but Ignore (log entries 14, 20). -/
def Obligations.UnrepresentableOperands : Prop :=
  ∀ (s : State) (frt fra frb frc : RegNum) (rc : Bool), s.Ieee →
    let goesOn (res : Res) (xs : List DWord) (mask : Word) : Prop := xs.all repSingle = false →
      ∃ t, res = .next t ∧ s.OtherFprs t frt ∧ SameOutside (mask ||| 0x60000000) s.fpscr t.fpscr ∧
        FpscrSummaries t.fpscr ∧ (if rc then s.OtherCrFields t 1 else t.cr = s.cr) ∧ s.SameBytes t ∧
        t.event = s.enabledEvent (bitAt t.fpscr 1) ∧
        t = { s with fpr := t.fpr, single := t.single, fpscr := t.fpscr, cr := t.cr, pc := s.nextPc,
                     undef := t.undef, event := t.event }
    let a := s.fprOf fra
    let b := s.fprOf frb
    let c := s.fprOf frc
    goesOn (exec (.fadds frt fra frb rc) s) [a, b] 0x9B87F000 ∧
    goesOn (exec (.fsubs frt fra frb rc) s) [a, b] 0x9B87F000 ∧
    goesOn (exec (.fmuls frt fra frc rc) s) [a, c] 0x9B17F000 ∧
    goesOn (exec (.fdivs frt fra frb rc) s) [a, b] 0x9F67F000 ∧
    goesOn (exec (.fmadds frt fra frb frc rc) s) [a, b, c] 0x9B97F000 ∧
    goesOn (exec (.fmsubs frt fra frb frc rc) s) [a, b, c] 0x9B97F000 ∧
    goesOn (exec (.fnmadds frt fra frb frc rc) s) [a, b, c] 0x9B97F000 ∧
    goesOn (exec (.fnmsubs frt fra frb frc rc) s) [a, b, c] 0x9B97F000 ∧
    (s.env.hasFpGeneral = true → goesOn (exec (.fsqrts frt frb rc) s) [b] 0x8307F200) ∧
    (s.env.hasFpGraphics = true → goesOn (exec (.fres frt frb rc) s) [b] 0x9F07F000 ∧
      goesOn (exec (.frsqrtes frt frb rc) s) [b] 0x8707F200)

/-! ## Rounding to single, conversions, compares -/

/-- frsp on every operand: what single format represents comes back unchanged with FR = FI = 0 (denormalized single values with
UE = 0, Quiet NaNs included); a nonzero number is rounded to single precision, with Overflow, Underflow and Inexact; a Quiet
NaN loses its low-order 29 bits; a Signaling NaN is invalid (48_fp_instructions.md R641, 47_fp_model.md R511, R516, R541, R542,
R556).  Choice: an enabled exception ends the run at this instruction in every mode but Ignore (R534, decision D9; log entries
10, 14). -/
def Obligations.RoundToSingleResults : Prop :=
  ∀ (s : State) (frt frb : RegNum) (rc : Bool), s.Ieee →
    let b := s.fprOf frb
    let high (x : DWord) : DWord := x &&& 0xFFFFFFFFE0000000
    (FpscrSummaries s.fpscr → repSingle b = true → isSNaN b = false →
      isNaN b = true ∨ isZero b = true ∨ 897 ≤ fpExp b ∨ bitAt s.fpscr 26 = false →
      DeliversExactly .sp (exec (.frsp frt frb rc) s) s frt rc b) ∧
    (isNumber b = true → DeliversRounded .sp false (exec (.frsp frt frb rc) s) s frt rc (fpRat b)) ∧
    (FpscrSummaries s.fpscr → isNaN b = true → isSNaN b = false →
      DeliversExactly .sp (exec (.frsp frt frb rc) s) s frt rc (high b)) ∧
    (isSNaN b = true → InvalidOperation .sp (exec (.frsp frt frb rc) s) s frt rc (fpBit 7) (high (quiet b)))

/-- The conversions to integer, on every operand.  A finite operand is rounded to an integer, as RN says or, for the z-forms,
toward zero; in range, it is delivered with FR, FI and XX of that rounding.  A NaN, an infinity or an integer out of range is
invalid: VXCVI, and for a Signaling NaN VXSNAN, are set and FR = FI = 0; disabled, a positive operand gives the most positive
integer, a negative one or a NaN the most negative; enabled, FRT and FPRF are unchanged.  FPRF, and for the word forms
FRT[0:31], are otherwise free (48_fp_instructions.md R642 to R645, 47_fp_model.md R523, R541, R542).  Choice: an enabled
exception ends the run at this instruction in every mode but Ignore (R534, decision D9; log entries 10, 14). -/
def Obligations.ConvertToIntegerResults : Prop :=
  ∀ (s : State) (frt frb : RegNum) (rc : Bool) (r : Rounded), s.Ieee →
    let b := s.fprOf frb
    let n : Int := if fpSign b then -(r.units : Int) else r.units
    let gives (res : Res) (w : Nat) : Prop := ∃ t, res = .next t ∧
      (t.fprOf frt).toNat % 2 ^ w = (n % 2 ^ w).toNat ∧ t.singleOf frt = false ∧
      bitAt t.fpscr 13 = r.inc ∧ bitAt t.fpscr 14 = r.inexact ∧
      SetsException s.fpscr t.fpscr (if r.inexact then fpBit 6 else 0) ∧
      s.FloatingPoint t frt rc (s.enabledEvent (r.inexact && bitAt s.fpscr 28))
    let invalid (res : Res) (w : Nat) : Prop := ∃ t, res = .next t ∧
      SetsException s.fpscr t.fpscr (fpBit 23 ||| if isSNaN b then fpBit 7 else 0) ∧
      bitAt t.fpscr 13 = false ∧ bitAt t.fpscr 14 = false ∧
      (bitAt s.fpscr 24 = false → t.singleOf frt = false ∧ (t.fprOf frt).toNat % 2 ^ w =
        if isNaN b || fpSign b then 2 ^ (w - 1) else 2 ^ (w - 1) - 1) ∧
      (bitAt s.fpscr 24 = true → t.fprOf frt = s.fprOf frt ∧ t.singleOf frt = s.singleOf frt ∧
        fld t.fpscr 15 5 = fld s.fpscr 15 5) ∧
      s.FloatingPoint t frt rc (s.enabledEvent (bitAt s.fpscr 24))
    let converts (mode : BitVec 2) (res : Res) (w : Nat) : Prop :=
      let inRange : Prop := -2 ^ (w - 1) ≤ n ∧ n < 2 ^ (w - 1)
      (isNaN b = true ∨ isInf b = true → invalid res w) ∧
      (isNaN b = false → isInf b = false → RoundsAt (fpSign b) |(fpRat b : ℝ)| 0 mode r →
        (inRange → gives res w) ∧ (¬inRange → invalid res w))
    converts (fld s.fpscr 30 2) (exec (.fctid frt frb rc) s) 64 ∧ converts 1 (exec (.fctidz frt frb rc) s) 64 ∧
    converts (fld s.fpscr 30 2) (exec (.fctiw frt frb rc) s) 32 ∧ converts 1 (exec (.fctiwz frt frb rc) s) 32

/-- fcfid: 0 gives +0, an integer of magnitude at most 2^53 its exact value, any other integer its value rounded as RN says, with
FR, FI and XX (48_fp_instructions.md R646, 47_fp_model.md R552 to R554, R556).  Choice: an enabled Inexact ends the run at this
instruction in every mode but Ignore (R534, decision D9; log entries 10, 14). -/
def Obligations.ConvertFromIntegerResults : Prop :=
  ∀ (s : State) (frt frb : RegNum) (rc : Bool), s.Ieee →
    let n := (s.fprOf frb).toInt
    (FpscrSummaries s.fpscr → n.natAbs ≤ 2 ^ 53 →
      ∃ x, (fpVal x).same ⟨n, 0⟩ ∧ (fpSign x = true → n < 0) ∧
        DeliversExactly .dp (exec (.fcfid frt frb rc) s) s frt rc x) ∧
    (n ≠ 0 → DeliversRounded .dp false (exec (.fcfid frt frb rc) s) s frt rc n)

/-- The compares order by value, both zeros equal, infinities at the ends, and set the field and FPCC to unordered for a NaN;
VXSNAN and VXVC are set as the page says, with the field and FPCC written whether enabled or not (48_fp_instructions.md R650
to R652).  Choice: an enabled exception ends the run at this instruction in every mode but Ignore (47_fp_model.md R534,
decision D9; log entries 10, 14). -/
def Obligations.FloatingCompareResults : Prop :=
  ∀ (s : State) (bf : BitVec 3) (fra frb : RegNum), s.Ieee →
    let a := s.fprOf fra
    let b := s.fprOf frb
    let code : BitVec 4 := if isNaN a || isNaN b then 0b0001 else if !fpLessEq b a then 0b1000
      else if !fpLessEq a b then 0b0100 else 0b0010
    let snan := isSNaN a || isSNaN b
    let nan := isNaN a || isNaN b
    let compared (res : Res) (vxvc : Bool) (inv : Bool) : Prop := ∃ t, res = .next t ∧
      t.crField bf = code ∧ s.OtherCrFields t bf ∧ fld t.fpscr 16 4 = code ∧
      bitAt t.fpscr 7 = (bitAt s.fpscr 7 || snan) ∧ bitAt t.fpscr 12 = (bitAt s.fpscr 12 || vxvc) ∧
      bitAt t.fpscr 0 = (bitAt s.fpscr 0 || (snan && !bitAt s.fpscr 7) || (vxvc && !bitAt s.fpscr 12)) ∧
      FpscrSummaries t.fpscr ∧ SameOutside 0xE108F000 s.fpscr t.fpscr ∧
      t.event = s.enabledEvent (inv && bitAt s.fpscr 24) ∧
      t = { s with cr := t.cr, fpscr := t.fpscr, pc := s.nextPc, event := t.event }
    compared (exec (.fcmpu bf fra frb) s) false snan ∧
    compared (exec (.fcmpo bf fra frb) s) (if snan then !bitAt s.fpscr 24 else nan) nan

/-! ## Estimates and refusals -/

/-- The estimates on every operand.  A nonzero number (a positive one, for the square root) gives a value of its sign within one
part in 256 of the reciprocal, or in 32 of the reciprocal root; where the reciprocal may leave the range, an infinity, a zero
or a denormalized value will do.  An infinity gives a zero, a zero an infinity of its sign with ZX, a Quiet NaN itself; a
Signaling NaN and, for the root, a negative operand are invalid.  An enabled Invalid Operation or Zero Divide leaves FRT and
FPRF as they were.  FR, FI and XX are free; OX and UX may be set only where the reciprocal may leave the range (49_optional.md
R680 to R685, 47_fp_model.md R541 to R545).  Choices: the value and the free bits are draws, and a draw that breaks the
contract stands for the nearest result (log entry 19); FEX = 1 afterwards counts as an exception caused, in every mode but
Ignore (decisions D9 and D21; log entry 14). -/
def Obligations.EstimateResults : Prop :=
  ∀ (s : State) (frt frb : RegNum) (rc : Bool), s.Ieee → s.env.hasFpGraphics = true →
    let b := s.fprOf frb
    let gives (fmt : FpFormat) (res : Res) (rsqrt : Bool) : Prop := (fmt.p = 24 → repSingle b = true) →
      let negative : Bool := rsqrt && fpSign b && !isNaN b && !isZero b
      let kept : Bool := ((isSNaN b || negative) && bitAt s.fpscr 24) || (isZero b && bitAt s.fpscr 27)
      let set (p : Bool) (i : Nat) : Word := if p then fpBit i else 0
      let exceptions := set (isSNaN b) 7 ||| set negative 22 ||| set (isZero b) 5
      let outOfRange : Word := if !rsqrt && isNumber b then
        set (recipHuge fmt b) 3 ||| set (recipTiny fmt b) 4 else 0
      ∃ t, res = .next t ∧
        t.fpscr &&& exceptions = exceptions ∧ (s.fpscr &&& outOfRange) &&& ~~~t.fpscr = 0 ∧
        bitAt t.fpscr 0 = (bitAt s.fpscr 0 || (t.fpscr &&& ~~~s.fpscr &&& 0x1FF80700 != 0)) ∧
        FpscrSummaries t.fpscr ∧ SameOutside (0xE207F000 ||| exceptions ||| outOfRange) s.fpscr t.fpscr ∧
        (kept = true → t.fprOf frt = s.fprOf frt ∧ t.singleOf frt = s.singleOf frt ∧
          fld t.fpscr 15 5 = fld s.fpscr 15 5) ∧
        (kept = false →
          t.singleOf frt = (fmt.p == 24) ∧ fld t.fpscr 15 5 = fpClass fmt (t.fprOf frt) ∧
          (isNaN b = true → t.fprOf frt = quiet b) ∧ (negative = true → t.fprOf frt = 0x7FF8000000000000) ∧
          (isInf b = true → negative = false → t.fprOf frt = fpZero (fpSign b)) ∧
          (isZero b = true → t.fprOf frt = fpInf (fpSign b)) ∧
          (isNumber b = true → negative = false →
            fpSign (t.fprOf frt) = fpSign b ∧ isNaN (t.fprOf frt) = false ∧
            (fmt.p = 24 → repSingle (t.fprOf frt) = true) ∧
            (rsqrt = false → RecipEstimate fmt (t.fprOf frt) b) ∧ (rsqrt = true → RsqrtEstimate (t.fprOf frt) b))) ∧
        s.FloatingPoint t frt rc (s.enabledEvent (bitAt t.fpscr 1))
    gives .dp (exec (.fre frt frb rc) s) false ∧ gives .sp (exec (.fres frt frb rc) s) false ∧
    gives .dp (exec (.frsqrte frt frb rc) s) true ∧ gives .sp (exec (.frsqrtes frt frb rc) s) true

/-- In non-IEEE mode every computational instruction is refused, because its results are in no source: the spec's own decision
(10_state.md R71, 47_fp_model.md R501, 92_eei_decisions.md D15; log entry 16). -/
def Obligations.NonIeeeModeRefused : Prop :=
  ∀ (s : State) (frt fra frb frc : RegNum) (bf : BitVec 3) (rc : Bool), s.env.hasNiMode = true →
    bitAt s.fpscr 29 = true →
    let refused (res : Res) : Prop := res = .refused .nonIeeeMode
    refused (exec (.fadd frt fra frb rc) s) ∧ refused (exec (.fadds frt fra frb rc) s) ∧
    refused (exec (.fsub frt fra frb rc) s) ∧ refused (exec (.fsubs frt fra frb rc) s) ∧
    refused (exec (.fmul frt fra frc rc) s) ∧ refused (exec (.fmuls frt fra frc rc) s) ∧
    refused (exec (.fdiv frt fra frb rc) s) ∧ refused (exec (.fdivs frt fra frb rc) s) ∧
    refused (exec (.fmadd frt fra frb frc rc) s) ∧ refused (exec (.fmadds frt fra frb frc rc) s) ∧
    refused (exec (.fmsub frt fra frb frc rc) s) ∧ refused (exec (.fmsubs frt fra frb frc rc) s) ∧
    refused (exec (.fnmadd frt fra frb frc rc) s) ∧ refused (exec (.fnmadds frt fra frb frc rc) s) ∧
    refused (exec (.fnmsub frt fra frb frc rc) s) ∧ refused (exec (.fnmsubs frt fra frb frc rc) s) ∧
    refused (exec (.frsp frt frb rc) s) ∧ refused (exec (.fctid frt frb rc) s) ∧
    refused (exec (.fctidz frt frb rc) s) ∧ refused (exec (.fctiw frt frb rc) s) ∧
    refused (exec (.fctiwz frt frb rc) s) ∧ refused (exec (.fcfid frt frb rc) s) ∧
    refused (exec (.fcmpu bf fra frb) s) ∧ refused (exec (.fcmpo bf fra frb) s) ∧
    (s.env.hasFpGeneral = true → refused (exec (.fsqrt frt frb rc) s) ∧ refused (exec (.fsqrts frt frb rc) s)) ∧
    (s.env.hasFpGraphics = true →
      refused (exec (.fre frt frb rc) s) ∧ refused (exec (.fres frt frb rc) s) ∧
      refused (exec (.frsqrte frt frb rc) s) ∧ refused (exec (.frsqrtes frt frb rc) s))
end

