-- ==== Sys2Proof/Laws/Bits.lean ====
section
/-!
SUPPORT. What the bit fields of Bits.lean hold, bit by bit in the spec's numbering.
-/
namespace Sys2Proof.Machine

/-- Two vectors with the same bits are equal. -/
theorem eq_of_bitAt_eq {w : Nat} {x y : BitVec w} (h : ∀ i, i < w → bitAt x i = bitAt y i) : x = y := by
  ext i hi
  have := h (w - 1 - i) (by omega)
  have e : w - 1 - (w - 1 - i) = i := by omega
  simpa [bitAt, e, BitVec.getLsbD_eq_getElem hi] using this

theorem bitAt_fld {w : Nat} (x : BitVec w) {start len i : Nat} (hi : i < len) (hl : start + len ≤ w) :
    bitAt (fld x start len) i = bitAt x (start + i) := by
  have h1 : len - 1 - i < len := by omega
  have h2 : w - start - len + (len - 1 - i) = w - 1 - (start + i) := by omega
  simp [bitAt, fld, h1, h2]

theorem bitAt_setFld {w len : Nat} (x : BitVec w) (v : BitVec len) {start i : Nat} (hi : i < w)
    (hl : start + len ≤ w) :
    bitAt (setFld x start v) i = if start ≤ i ∧ i < start + len then bitAt v (i - start) else bitAt x i := by
  have hw : w - 1 - i < w := by omega
  by_cases h : start ≤ i ∧ i < start + len
  · have h1 : ¬ (w - 1 - i < w - start - len) := by omega
    have h2 : w - 1 - i - (w - start - len) = len - 1 - (i - start) := by omega
    have h4 : len - 1 - (i - start) < len := by omega
    simp [bitAt, setFld, hw, h, h1, h2, h4]
  · by_cases h1 : w - 1 - i < w - start - len
    · simp [bitAt, setFld, hw, h, h1]
    · have h2 : ¬ (w - 1 - i - (w - start - len) < len) := by omega
      have h3 : v.getLsbD (w - 1 - i - (w - start - len)) = false := BitVec.getLsbD_of_ge _ _ (by omega)
      simp [bitAt, setFld, hw, h, h1, h2, h3]

theorem bitAt_setBitAt {w : Nat} (x : BitVec w) (b : Bool) {i j : Nat} (hi : i < w) (hj : j < w) :
    bitAt (setBitAt x j b) i = if i = j then b else bitAt x i := by
  rw [setBitAt, bitAt_setFld x (BitVec.ofBool b) hi (by omega)]
  by_cases h : i = j
  · subst h
    cases b <;> simp [bitAt]
  · rw [if_neg (by omega), if_neg h]

theorem fld_setFld_same {w len : Nat} (x : BitVec w) (v : BitVec len) {start : Nat} (hl : start + len ≤ w) :
    fld (setFld x start v) start len = v := by
  apply eq_of_bitAt_eq
  intro i hi
  rw [bitAt_fld _ hi hl, bitAt_setFld x v (by omega) hl, if_pos (by omega)]
  congr 1
  omega

theorem fld_setFld_disjoint {w len k : Nat} (x : BitVec w) (v : BitVec len) {start at' : Nat}
    (hl : start + len ≤ w) (hk : at' + k ≤ w) (h : at' + k ≤ start ∨ start + len ≤ at') :
    fld (setFld x start v) at' k = fld x at' k := by
  apply eq_of_bitAt_eq
  intro i hi
  rw [bitAt_fld _ hi hk, bitAt_fld _ hi hk, bitAt_setFld x v (by omega) hl, if_neg (by omega)]

theorem bitAt_and {w : Nat} (x y : BitVec w) (i : Nat) : bitAt (x &&& y) i = (bitAt x i && bitAt y i) := by
  simp [bitAt]

theorem bitAt_or {w : Nat} (x y : BitVec w) (i : Nat) : bitAt (x ||| y) i = (bitAt x i || bitAt y i) := by
  simp [bitAt]

theorem bitAt_xor {w : Nat} (x y : BitVec w) (i : Nat) : bitAt (x ^^^ y) i = (bitAt x i != bitAt y i) := by
  simp [bitAt, Bool.xor]

theorem bitAt_not {w : Nat} (x : BitVec w) {i : Nat} (hi : i < w) : bitAt (~~~x) i = !bitAt x i := by
  have : w - 1 - i < w := by omega
  simp [bitAt, this]

end Sys2Proof.Machine
end

