-- ==== Sys2Proof/Laws/Encoding.lean ====
section
/-!
SUPPORT. The fields of a concatenation, in the spec's numbering: what each field of an encoder's word holds.
-/
namespace Sys2Proof.Machine

theorem bitAt_append_left {a b : Nat} (x : BitVec a) (y : BitVec b) {i : Nat} (h : i < a) :
    bitAt (x ++ y) i = bitAt x i := by
  have h1 : ¬ (a + b - 1 - i < b) := by omega
  have h2 : a + b - 1 - i - b = a - 1 - i := by omega
  simp [bitAt, BitVec.getLsbD_append, h1, h2]

theorem bitAt_append_right {a b : Nat} (x : BitVec a) (y : BitVec b) {i : Nat} (h : a ≤ i) (hi : i < a + b) :
    bitAt (x ++ y) i = bitAt y (i - a) := by
  have h1 : a + b - 1 - i < b := by omega
  have h2 : a + b - 1 - i = b - 1 - (i - a) := by omega
  have h3 : b - 1 - (i - a) < b := by omega
  simp only [bitAt, BitVec.getLsbD_append, h2, h3, if_true]

theorem fld_append_left {a b : Nat} (x : BitVec a) (y : BitVec b) {i n : Nat} (h : i + n ≤ a) :
    fld (x ++ y) i n = fld x i n := by
  apply eq_of_bitAt_eq
  intro j hj
  rw [bitAt_fld _ hj (by omega), bitAt_fld _ hj h, bitAt_append_left x y (by omega)]

theorem fld_append_right {a b : Nat} (x : BitVec a) (y : BitVec b) {i n : Nat} (h : a ≤ i) (hn : i + n ≤ a + b) :
    fld (x ++ y) i n = fld y (i - a) n := by
  apply eq_of_bitAt_eq
  intro j hj
  rw [bitAt_fld _ hj hn, bitAt_fld _ hj (by omega), bitAt_append_right x y (by omega) (by omega)]
  congr 1
  omega

/-- A field is the concatenation of its first `m` bits and the rest: for a field that crosses two slots. -/
theorem fld_split {w : Nat} (x : BitVec w) {i m n : Nat} (h : i + (m + n) ≤ w) :
    fld x i (m + n) = fld x i m ++ fld x (i + m) n := by
  apply eq_of_bitAt_eq
  intro j hj
  rw [bitAt_fld _ hj h]
  by_cases hm : j < m
  · rw [bitAt_append_left _ _ hm, bitAt_fld _ hm (by omega)]
  · rw [bitAt_append_right _ _ (by omega) hj, bitAt_fld _ (by omega) (by omega)]
    congr 1
    omega

theorem fld_whole {w : Nat} (x : BitVec w) : fld x 0 w = x :=
  eq_of_bitAt_eq fun i hi => by rw [bitAt_fld x hi (by omega), Nat.zero_add]

theorem fld_fld {w : Nat} (x : BitVec w) {i n j m : Nat} (h : j + m ≤ n) (hn : i + n ≤ w) :
    fld (fld x i n) j m = fld x (i + j) m := by
  apply eq_of_bitAt_eq
  intro k hk
  rw [bitAt_fld _ hk h, bitAt_fld _ (by omega) hn, bitAt_fld _ hk (by omega), Nat.add_assoc]

theorem bitAt_ofBool (b : Bool) : bitAt (BitVec.ofBool b) 0 = b := by
  cases b <;> rfl

/-! ## The forms -/

theorem dForm_fields (op : BitVec 6) (a b : BitVec 5) (d : BitVec 16) :
      fld (dForm op a b d) 0 6 = op ∧
      fld (dForm op a b d) 6 5 = a ∧
      fld (dForm op a b d) 11 5 = b ∧
      fld (dForm op a b d) 16 16 = d ∧
      fld (dForm op a b d) 6 3 = fld a 0 3 ∧
      bitAt (dForm op a b d) 10 = bitAt a 4 := by
  refine ⟨?_, ?_, ?_, ?_, ?_, ?_⟩
  all_goals
    unfold dForm
    repeat first
      | refine (fld_append_left _ _ (by decide)).trans ?_
      | refine (fld_append_right _ _ (by decide) (by decide)).trans ?_
      | refine (bitAt_append_left _ _ (by decide)).trans ?_
      | refine (bitAt_append_right _ _ (by decide) (by decide)).trans ?_
    first
      | exact fld_whole _
      | exact bitAt_ofBool _
      | rfl

theorem iForm_fields (op : BitVec 6) (li : BitVec 24) (aa lk : Bool) :
      fld (iForm op li aa lk) 0 6 = op ∧
      fld (iForm op li aa lk) 6 24 = li ∧
      bitAt (iForm op li aa lk) 30 = aa ∧
      bitAt (iForm op li aa lk) 31 = lk := by
  refine ⟨?_, ?_, ?_, ?_⟩
  all_goals
    unfold iForm
    repeat first
      | refine (fld_append_left _ _ (by decide)).trans ?_
      | refine (fld_append_right _ _ (by decide) (by decide)).trans ?_
      | refine (bitAt_append_left _ _ (by decide)).trans ?_
      | refine (bitAt_append_right _ _ (by decide) (by decide)).trans ?_
    first
      | exact fld_whole _
      | exact bitAt_ofBool _

theorem bForm_fields (op : BitVec 6) (bo bi : BitVec 5) (bd : BitVec 14) (aa lk : Bool) :
      fld (bForm op bo bi bd aa lk) 0 6 = op ∧
      fld (bForm op bo bi bd aa lk) 6 5 = bo ∧
      fld (bForm op bo bi bd aa lk) 11 5 = bi ∧
      fld (bForm op bo bi bd aa lk) 16 14 = bd ∧
      bitAt (bForm op bo bi bd aa lk) 30 = aa ∧
      bitAt (bForm op bo bi bd aa lk) 31 = lk := by
  refine ⟨?_, ?_, ?_, ?_, ?_, ?_⟩
  all_goals
    unfold bForm
    repeat first
      | refine (fld_append_left _ _ (by decide)).trans ?_
      | refine (fld_append_right _ _ (by decide) (by decide)).trans ?_
      | refine (bitAt_append_left _ _ (by decide)).trans ?_
      | refine (bitAt_append_right _ _ (by decide) (by decide)).trans ?_
    first
      | exact fld_whole _
      | exact bitAt_ofBool _

theorem scForm_fields (op : BitVec 6) (lev : BitVec 7) (bit30 : Bool) :
      fld (scForm op lev bit30) 0 6 = op ∧
      fld (scForm op lev bit30) 20 7 = lev ∧
      bitAt (scForm op lev bit30) 30 = bit30 := by
  refine ⟨?_, ?_, ?_⟩
  all_goals
    unfold scForm
    repeat first
      | refine (fld_append_left _ _ (by decide)).trans ?_
      | refine (fld_append_right _ _ (by decide) (by decide)).trans ?_
      | refine (bitAt_append_left _ _ (by decide)).trans ?_
      | refine (bitAt_append_right _ _ (by decide) (by decide)).trans ?_
    first
      | exact fld_whole _
      | exact bitAt_ofBool _

theorem dsForm_fields (op : BitVec 6) (a b : BitVec 5) (ds : BitVec 14) (xo : BitVec 2) :
      fld (dsForm op a b ds xo) 0 6 = op ∧
      fld (dsForm op a b ds xo) 6 5 = a ∧
      fld (dsForm op a b ds xo) 11 5 = b ∧
      fld (dsForm op a b ds xo) 16 14 = ds ∧
      fld (dsForm op a b ds xo) 30 2 = xo := by
  refine ⟨?_, ?_, ?_, ?_, ?_⟩
  all_goals
    unfold dsForm
    repeat first
      | refine (fld_append_left _ _ (by decide)).trans ?_
      | refine (fld_append_right _ _ (by decide) (by decide)).trans ?_
    exact fld_whole _

theorem xForm_fields (op : BitVec 6) (a b c : BitVec 5) (xo : BitVec 10) (r : Bool) :
      fld (xForm op a b c xo r) 0 6 = op ∧
      fld (xForm op a b c xo r) 6 5 = a ∧
      fld (xForm op a b c xo r) 11 5 = b ∧
      fld (xForm op a b c xo r) 16 5 = c ∧
      fld (xForm op a b c xo r) 21 10 = xo ∧
      bitAt (xForm op a b c xo r) 31 = r ∧
      fld (xForm op a b c xo r) 26 5 = fld xo 5 5 ∧
      fld (xForm op a b c xo r) 6 3 = fld a 0 3 ∧
      bitAt (xForm op a b c xo r) 10 = bitAt a 4 ∧
      fld (xForm op a b c xo r) 11 3 = fld b 0 3 ∧
      fld (xForm op a b c xo r) 16 4 = fld c 0 4 ∧
      fld (xForm op a b c xo r) 19 2 = fld c 3 2 := by
  refine ⟨?_, ?_, ?_, ?_, ?_, ?_, ?_, ?_, ?_, ?_, ?_, ?_⟩
  all_goals
    unfold xForm
    repeat first
      | refine (fld_append_left _ _ (by decide)).trans ?_
      | refine (fld_append_right _ _ (by decide) (by decide)).trans ?_
      | refine (bitAt_append_left _ _ (by decide)).trans ?_
      | refine (bitAt_append_right _ _ (by decide) (by decide)).trans ?_
    first
      | exact fld_whole _
      | exact bitAt_ofBool _
      | rfl

theorem fxmForm_fields (op : BitVec 6) (a : BitVec 5) (one : Bool) (fxm : BitVec 8) (xo : BitVec 10) :
      fld (fxmForm op a one fxm xo) 0 6 = op ∧
      fld (fxmForm op a one fxm xo) 6 5 = a ∧
      bitAt (fxmForm op a one fxm xo) 11 = one ∧
      fld (fxmForm op a one fxm xo) 12 8 = fxm ∧
      fld (fxmForm op a one fxm xo) 21 10 = xo := by
  refine ⟨?_, ?_, ?_, ?_, ?_⟩
  all_goals
    unfold fxmForm
    repeat first
      | refine (fld_append_left _ _ (by decide)).trans ?_
      | refine (fld_append_right _ _ (by decide) (by decide)).trans ?_
      | refine (bitAt_append_left _ _ (by decide)).trans ?_
      | refine (bitAt_append_right _ _ (by decide) (by decide)).trans ?_
    first
      | exact fld_whole _
      | exact bitAt_ofBool _

theorem sprForm_fields (op : BitVec 6) (a : BitVec 5) (spr xo : BitVec 10) :
      fld (sprForm op a spr xo) 0 6 = op ∧
      fld (sprForm op a spr xo) 6 5 = a ∧
      fld (sprForm op a spr xo) 11 5 = fld spr 5 5 ∧
      fld (sprForm op a spr xo) 16 5 = fld spr 0 5 ∧
      fld (sprForm op a spr xo) 21 10 = xo := by
  refine ⟨?_, ?_, ?_, ?_, ?_⟩
  all_goals
    unfold sprForm
    repeat first
      | refine (fld_append_left _ _ (by decide)).trans ?_
      | refine (fld_append_right _ _ (by decide) (by decide)).trans ?_
    exact fld_whole _

theorem xflForm_fields (op : BitVec 6) (flm : BitVec 8) (b : BitVec 5) (xo : BitVec 10) (r : Bool) :
      fld (xflForm op flm b xo r) 0 6 = op ∧
      fld (xflForm op flm b xo r) 7 8 = flm ∧
      fld (xflForm op flm b xo r) 16 5 = b ∧
      fld (xflForm op flm b xo r) 21 10 = xo ∧
      fld (xflForm op flm b xo r) 26 5 = fld xo 5 5 ∧
      bitAt (xflForm op flm b xo r) 31 = r := by
  refine ⟨?_, ?_, ?_, ?_, ?_, ?_⟩
  all_goals
    unfold xflForm
    repeat first
      | refine (fld_append_left _ _ (by decide)).trans ?_
      | refine (fld_append_right _ _ (by decide) (by decide)).trans ?_
      | refine (bitAt_append_left _ _ (by decide)).trans ?_
      | refine (bitAt_append_right _ _ (by decide) (by decide)).trans ?_
    first
      | exact fld_whole _
      | exact bitAt_ofBool _
      | rfl

theorem xsForm_fields (op : BitVec 6) (a b : BitVec 5) (sh : BitVec 6) (xo : BitVec 9) (r : Bool) :
      fld (xsForm op a b sh xo r) 0 6 = op ∧
      fld (xsForm op a b sh xo r) 6 5 = a ∧
      fld (xsForm op a b sh xo r) 11 5 = b ∧
      fld (xsForm op a b sh xo r) 16 5 = fld sh 1 5 ∧
      fld (xsForm op a b sh xo r) 21 9 = xo ∧
      fld (xsForm op a b sh xo r) 30 1 = fld sh 0 1 ∧
      bitAt (xsForm op a b sh xo r) 31 = r := by
  refine ⟨?_, ?_, ?_, ?_, ?_, ?_, ?_⟩
  all_goals
    unfold xsForm
    repeat first
      | refine (fld_append_left _ _ (by decide)).trans ?_
      | refine (fld_append_right _ _ (by decide) (by decide)).trans ?_
      | refine (bitAt_append_left _ _ (by decide)).trans ?_
      | refine (bitAt_append_right _ _ (by decide) (by decide)).trans ?_
    first
      | exact fld_whole _
      | exact bitAt_ofBool _

theorem xoForm_fields (op : BitVec 6) (a b c : BitVec 5) (oe : Bool) (xo : BitVec 9) (r : Bool) :
      fld (xoForm op a b c oe xo r) 0 6 = op ∧
      fld (xoForm op a b c oe xo r) 6 5 = a ∧
      fld (xoForm op a b c oe xo r) 11 5 = b ∧
      fld (xoForm op a b c oe xo r) 16 5 = c ∧
      bitAt (xoForm op a b c oe xo r) 21 = oe ∧
      fld (xoForm op a b c oe xo r) 21 1 = BitVec.ofBool oe ∧
      fld (xoForm op a b c oe xo r) 22 9 = xo ∧
      bitAt (xoForm op a b c oe xo r) 31 = r := by
  refine ⟨?_, ?_, ?_, ?_, ?_, ?_, ?_, ?_⟩
  all_goals
    unfold xoForm
    repeat first
      | refine (fld_append_left _ _ (by decide)).trans ?_
      | refine (fld_append_right _ _ (by decide) (by decide)).trans ?_
      | refine (bitAt_append_left _ _ (by decide)).trans ?_
      | refine (bitAt_append_right _ _ (by decide) (by decide)).trans ?_
    first
      | exact fld_whole _
      | exact bitAt_ofBool _

theorem aForm_fields (op : BitVec 6) (a b c d xo : BitVec 5) (r : Bool) :
      fld (aForm op a b c d xo r) 0 6 = op ∧
      fld (aForm op a b c d xo r) 6 5 = a ∧
      fld (aForm op a b c d xo r) 11 5 = b ∧
      fld (aForm op a b c d xo r) 16 5 = c ∧
      fld (aForm op a b c d xo r) 21 5 = d ∧
      fld (aForm op a b c d xo r) 26 5 = xo ∧
      bitAt (aForm op a b c d xo r) 31 = r := by
  refine ⟨?_, ?_, ?_, ?_, ?_, ?_, ?_⟩
  all_goals
    unfold aForm
    repeat first
      | refine (fld_append_left _ _ (by decide)).trans ?_
      | refine (fld_append_right _ _ (by decide) (by decide)).trans ?_
      | refine (bitAt_append_left _ _ (by decide)).trans ?_
      | refine (bitAt_append_right _ _ (by decide) (by decide)).trans ?_
    first
      | exact fld_whole _
      | exact bitAt_ofBool _

theorem mForm_fields (op : BitVec 6) (a b c mb me : BitVec 5) (r : Bool) :
      fld (mForm op a b c mb me r) 0 6 = op ∧
      fld (mForm op a b c mb me r) 6 5 = a ∧
      fld (mForm op a b c mb me r) 11 5 = b ∧
      fld (mForm op a b c mb me r) 16 5 = c ∧
      fld (mForm op a b c mb me r) 21 5 = mb ∧
      fld (mForm op a b c mb me r) 26 5 = me ∧
      bitAt (mForm op a b c mb me r) 31 = r := by
  refine ⟨?_, ?_, ?_, ?_, ?_, ?_, ?_⟩
  all_goals
    unfold mForm
    repeat first
      | refine (fld_append_left _ _ (by decide)).trans ?_
      | refine (fld_append_right _ _ (by decide) (by decide)).trans ?_
      | refine (bitAt_append_left _ _ (by decide)).trans ?_
      | refine (bitAt_append_right _ _ (by decide) (by decide)).trans ?_
    first
      | exact fld_whole _
      | exact bitAt_ofBool _

theorem mdForm_fields (op : BitVec 6) (a b : BitVec 5) (sh mb : BitVec 6) (xo : BitVec 3) (r : Bool) :
      fld (mdForm op a b sh mb xo r) 0 6 = op ∧
      fld (mdForm op a b sh mb xo r) 6 5 = a ∧
      fld (mdForm op a b sh mb xo r) 11 5 = b ∧
      fld (mdForm op a b sh mb xo r) 16 5 = fld sh 1 5 ∧
      fld (mdForm op a b sh mb xo r) 21 5 = fld mb 1 5 ∧
      fld (mdForm op a b sh mb xo r) 26 1 = fld mb 0 1 ∧
      fld (mdForm op a b sh mb xo r) 27 3 = xo ∧
      fld (mdForm op a b sh mb xo r) 30 1 = fld sh 0 1 ∧
      bitAt (mdForm op a b sh mb xo r) 31 = r := by
  refine ⟨?_, ?_, ?_, ?_, ?_, ?_, ?_, ?_, ?_⟩
  all_goals
    unfold mdForm
    repeat first
      | refine (fld_append_left _ _ (by decide)).trans ?_
      | refine (fld_append_right _ _ (by decide) (by decide)).trans ?_
      | refine (bitAt_append_left _ _ (by decide)).trans ?_
      | refine (bitAt_append_right _ _ (by decide) (by decide)).trans ?_
    first
      | exact fld_whole _
      | exact bitAt_ofBool _

theorem mdsForm_fields (op : BitVec 6) (a b c : BitVec 5) (mb : BitVec 6) (xo : BitVec 4) (r : Bool) :
      fld (mdsForm op a b c mb xo r) 0 6 = op ∧
      fld (mdsForm op a b c mb xo r) 6 5 = a ∧
      fld (mdsForm op a b c mb xo r) 11 5 = b ∧
      fld (mdsForm op a b c mb xo r) 16 5 = c ∧
      fld (mdsForm op a b c mb xo r) 21 5 = fld mb 1 5 ∧
      fld (mdsForm op a b c mb xo r) 26 1 = fld mb 0 1 ∧
      fld (mdsForm op a b c mb xo r) 27 4 = xo ∧
      fld (mdsForm op a b c mb xo r) 27 3 = fld xo 0 3 ∧
      bitAt (mdsForm op a b c mb xo r) 31 = r := by
  refine ⟨?_, ?_, ?_, ?_, ?_, ?_, ?_, ?_, ?_⟩
  all_goals
    unfold mdsForm
    repeat first
      | refine (fld_append_left _ _ (by decide)).trans ?_
      | refine (fld_append_right _ _ (by decide) (by decide)).trans ?_
      | refine (bitAt_append_left _ _ (by decide)).trans ?_
      | refine (bitAt_append_right _ _ (by decide) (by decide)).trans ?_
    first
      | exact fld_whole _
      | exact bitAt_ofBool _
      | rfl

/-- The ten bits that decode31 reads of an XO-form word: OE, then the extended opcode. -/
theorem xoForm_fld_21_10 (op : BitVec 6) (a b c : BitVec 5) (oe : Bool) (xo : BitVec 9) (r : Bool) :
    fld (xoForm op a b c oe xo r) 21 10 = BitVec.ofBool oe ++ xo := by
  obtain ⟨-, -, -, -, -, h, h', -⟩ := xoForm_fields op a b c oe xo r
  exact (fld_split (m := 1) (n := 9) (xoForm op a b c oe xo r) (by decide)).trans (by rw [h, h'])

/-- The ten bits that decode31 reads of an XS-form word: the extended opcode, then SH's first bit. -/
theorem xsForm_fld_21_10 (op : BitVec 6) (a b : BitVec 5) (sh : BitVec 6) (xo : BitVec 9) (r : Bool) :
    fld (xsForm op a b sh xo r) 21 10 = xo ++ fld sh 0 1 := by
  obtain ⟨-, -, -, -, h, h', -⟩ := xsForm_fields op a b sh xo r
  exact (fld_split (m := 9) (n := 1) (xsForm op a b sh xo r) (by decide)).trans (by rw [h, h'])

theorem xsForm_fld_22_9 (op : BitVec 6) (a b : BitVec 5) (sh : BitVec 6) (xo : BitVec 9) (r : Bool) :
    fld (xsForm op a b sh xo r) 22 9 = fld xo 1 8 ++ fld sh 0 1 := by
  obtain ⟨-, -, -, -, h, h', -⟩ := xsForm_fields op a b sh xo r
  have e : fld (xsForm op a b sh xo r) 22 8 = fld xo 1 8 := by
    refine (fld_fld (xsForm op a b sh xo r) (i := 21) (n := 9) (j := 1) (by decide) (by decide)).symm.trans ?_
    rw [h]
  exact (fld_split (m := 8) (n := 1) (xsForm op a b sh xo r) (by decide)).trans (by rw [e, h'])

/-- A field split in two and put together again, as spr, sh, mb and me are. -/
theorem fld_join {m n : Nat} (x : BitVec (m + n)) : fld x 0 m ++ fld x m n = x := by
  have h := fld_split x (i := 0) (m := m) (n := n) (by omega)
  rw [fld_whole] at h
  simpa using h.symm

theorem xsForm_splitSh (op : BitVec 6) (a b : BitVec 5) (sh : BitVec 6) (xo : BitVec 9) (r : Bool) :
    splitSh (xsForm op a b sh xo r) = sh := by
  obtain ⟨-, -, -, h, -, h', -⟩ := xsForm_fields op a b sh xo r
  rw [splitSh, h, h']
  exact fld_join (m := 1) (n := 5) sh

theorem mdForm_splitSh (op : BitVec 6) (a b : BitVec 5) (sh mb : BitVec 6) (xo : BitVec 3) (r : Bool) :
    splitSh (mdForm op a b sh mb xo r) = sh := by
  obtain ⟨-, -, -, h, -, -, -, h', -⟩ := mdForm_fields op a b sh mb xo r
  rw [splitSh, h, h']
  exact fld_join (m := 1) (n := 5) sh

theorem mdForm_splitMb (op : BitVec 6) (a b : BitVec 5) (sh mb : BitVec 6) (xo : BitVec 3) (r : Bool) :
    splitMb (mdForm op a b sh mb xo r) = mb := by
  obtain ⟨-, -, -, -, h, h', -⟩ := mdForm_fields op a b sh mb xo r
  rw [splitMb, h, h']
  exact fld_join (m := 1) (n := 5) mb

theorem mdsForm_splitMb (op : BitVec 6) (a b c : BitVec 5) (mb : BitVec 6) (xo : BitVec 4) (r : Bool) :
    splitMb (mdsForm op a b c mb xo r) = mb := by
  obtain ⟨-, -, -, -, h, h', -⟩ := mdsForm_fields op a b c mb xo r
  rw [splitMb, h, h']
  exact fld_join (m := 1) (n := 5) mb

theorem sprForm_splitSpr (op : BitVec 6) (a : BitVec 5) (spr xo : BitVec 10) :
    splitSpr (sprForm op a spr xo) = spr := by
  obtain ⟨-, -, h, h', -⟩ := sprForm_fields op a spr xo
  rw [splitSpr, h, h']
  exact fld_join (m := 5) (n := 5) spr

/-- What the decoder reads of the slots that hold less than five bits. -/
theorem slot_fields (bf : BitVec 3) (l : Bool) (bh : BitVec 2) (u : BitVec 4) :
    fld (bfSlot bf) 0 3 = bf ∧ fld (cmpSlot bf l) 0 3 = bf ∧ bitAt (cmpSlot bf l) 4 = l ∧
      fld (bhSlot bh) 3 2 = bh ∧ fld (uSlot u) 0 4 = u := by
  revert bf l bh u
  decide

end Sys2Proof.Machine
end

