-- ==== Sys2Proof/Laws/State.lean ====
section
/-!
SUPPORT. One lemma per field per update of the state, so that no proof unfolds a record update; and what the register
accessors read after a register is written.
-/
namespace Sys2Proof.Machine

variable (s : State)

/-! ## setGpr -/

@[simp] theorem State.setGpr_fpr (r : RegNum) (v : DWord) : (s.setGpr r v).fpr = s.fpr := rfl
@[simp] theorem State.setGpr_cr (r : RegNum) (v : DWord) : (s.setGpr r v).cr = s.cr := rfl
@[simp] theorem State.setGpr_lr (r : RegNum) (v : DWord) : (s.setGpr r v).lr = s.lr := rfl
@[simp] theorem State.setGpr_ctr (r : RegNum) (v : DWord) : (s.setGpr r v).ctr = s.ctr := rfl
@[simp] theorem State.setGpr_xer (r : RegNum) (v : DWord) : (s.setGpr r v).xer = s.xer := rfl
@[simp] theorem State.setGpr_fpscr (r : RegNum) (v : DWord) : (s.setGpr r v).fpscr = s.fpscr := rfl
@[simp] theorem State.setGpr_pc (r : RegNum) (v : DWord) : (s.setGpr r v).pc = s.pc := rfl
@[simp] theorem State.setGpr_insn (r : RegNum) (v : DWord) : (s.setGpr r v).insn = s.insn := rfl
@[simp] theorem State.setGpr_single (r : RegNum) (v : DWord) : (s.setGpr r v).single = s.single := rfl
@[simp] theorem State.setGpr_mem (r : RegNum) (v : DWord) : (s.setGpr r v).mem = s.mem := rfl
@[simp] theorem State.setGpr_stored (r : RegNum) (v : DWord) : (s.setGpr r v).stored = s.stored := rfl
@[simp] theorem State.setGpr_event (r : RegNum) (v : DWord) : (s.setGpr r v).event = s.event := rfl
@[simp] theorem State.setGpr_undef (r : RegNum) (v : DWord) : (s.setGpr r v).undef = s.undef := rfl
@[simp] theorem State.setGpr_begun (r : RegNum) (v : DWord) : (s.setGpr r v).begun = s.begun := rfl
@[simp] theorem State.setGpr_env (r : RegNum) (v : DWord) : (s.setGpr r v).env = s.env := rfl

/-! ## setFpr -/

@[simp] theorem State.setFpr_gpr (r : RegNum) (v : DWord) (b : Bool) : (s.setFpr r v b).gpr = s.gpr := rfl
@[simp] theorem State.setFpr_cr (r : RegNum) (v : DWord) (b : Bool) : (s.setFpr r v b).cr = s.cr := rfl
@[simp] theorem State.setFpr_lr (r : RegNum) (v : DWord) (b : Bool) : (s.setFpr r v b).lr = s.lr := rfl
@[simp] theorem State.setFpr_ctr (r : RegNum) (v : DWord) (b : Bool) : (s.setFpr r v b).ctr = s.ctr := rfl
@[simp] theorem State.setFpr_xer (r : RegNum) (v : DWord) (b : Bool) : (s.setFpr r v b).xer = s.xer := rfl
@[simp] theorem State.setFpr_fpscr (r : RegNum) (v : DWord) (b : Bool) : (s.setFpr r v b).fpscr = s.fpscr := rfl
@[simp] theorem State.setFpr_pc (r : RegNum) (v : DWord) (b : Bool) : (s.setFpr r v b).pc = s.pc := rfl
@[simp] theorem State.setFpr_insn (r : RegNum) (v : DWord) (b : Bool) : (s.setFpr r v b).insn = s.insn := rfl
@[simp] theorem State.setFpr_mem (r : RegNum) (v : DWord) (b : Bool) : (s.setFpr r v b).mem = s.mem := rfl
@[simp] theorem State.setFpr_stored (r : RegNum) (v : DWord) (b : Bool) : (s.setFpr r v b).stored = s.stored := rfl
@[simp] theorem State.setFpr_event (r : RegNum) (v : DWord) (b : Bool) : (s.setFpr r v b).event = s.event := rfl
@[simp] theorem State.setFpr_undef (r : RegNum) (v : DWord) (b : Bool) : (s.setFpr r v b).undef = s.undef := rfl
@[simp] theorem State.setFpr_begun (r : RegNum) (v : DWord) (b : Bool) : (s.setFpr r v b).begun = s.begun := rfl
@[simp] theorem State.setFpr_env (r : RegNum) (v : DWord) (b : Bool) : (s.setFpr r v b).env = s.env := rfl

/-! ## setCr -/

@[simp] theorem State.setCr_gpr (v : Word) : (s.setCr v).gpr = s.gpr := rfl
@[simp] theorem State.setCr_fpr (v : Word) : (s.setCr v).fpr = s.fpr := rfl
@[simp] theorem State.setCr_cr (v : Word) : (s.setCr v).cr = v := rfl
@[simp] theorem State.setCr_lr (v : Word) : (s.setCr v).lr = s.lr := rfl
@[simp] theorem State.setCr_ctr (v : Word) : (s.setCr v).ctr = s.ctr := rfl
@[simp] theorem State.setCr_xer (v : Word) : (s.setCr v).xer = s.xer := rfl
@[simp] theorem State.setCr_fpscr (v : Word) : (s.setCr v).fpscr = s.fpscr := rfl
@[simp] theorem State.setCr_pc (v : Word) : (s.setCr v).pc = s.pc := rfl
@[simp] theorem State.setCr_insn (v : Word) : (s.setCr v).insn = s.insn := rfl
@[simp] theorem State.setCr_single (v : Word) : (s.setCr v).single = s.single := rfl
@[simp] theorem State.setCr_mem (v : Word) : (s.setCr v).mem = s.mem := rfl
@[simp] theorem State.setCr_stored (v : Word) : (s.setCr v).stored = s.stored := rfl
@[simp] theorem State.setCr_event (v : Word) : (s.setCr v).event = s.event := rfl
@[simp] theorem State.setCr_undef (v : Word) : (s.setCr v).undef = s.undef := rfl
@[simp] theorem State.setCr_begun (v : Word) : (s.setCr v).begun = s.begun := rfl
@[simp] theorem State.setCr_env (v : Word) : (s.setCr v).env = s.env := rfl

/-! ## setLr -/

@[simp] theorem State.setLr_gpr (v : DWord) : (s.setLr v).gpr = s.gpr := rfl
@[simp] theorem State.setLr_fpr (v : DWord) : (s.setLr v).fpr = s.fpr := rfl
@[simp] theorem State.setLr_cr (v : DWord) : (s.setLr v).cr = s.cr := rfl
@[simp] theorem State.setLr_lr (v : DWord) : (s.setLr v).lr = v := rfl
@[simp] theorem State.setLr_ctr (v : DWord) : (s.setLr v).ctr = s.ctr := rfl
@[simp] theorem State.setLr_xer (v : DWord) : (s.setLr v).xer = s.xer := rfl
@[simp] theorem State.setLr_fpscr (v : DWord) : (s.setLr v).fpscr = s.fpscr := rfl
@[simp] theorem State.setLr_pc (v : DWord) : (s.setLr v).pc = s.pc := rfl
@[simp] theorem State.setLr_insn (v : DWord) : (s.setLr v).insn = s.insn := rfl
@[simp] theorem State.setLr_single (v : DWord) : (s.setLr v).single = s.single := rfl
@[simp] theorem State.setLr_mem (v : DWord) : (s.setLr v).mem = s.mem := rfl
@[simp] theorem State.setLr_stored (v : DWord) : (s.setLr v).stored = s.stored := rfl
@[simp] theorem State.setLr_event (v : DWord) : (s.setLr v).event = s.event := rfl
@[simp] theorem State.setLr_undef (v : DWord) : (s.setLr v).undef = s.undef := rfl
@[simp] theorem State.setLr_begun (v : DWord) : (s.setLr v).begun = s.begun := rfl
@[simp] theorem State.setLr_env (v : DWord) : (s.setLr v).env = s.env := rfl

/-! ## setCtr -/

@[simp] theorem State.setCtr_gpr (v : DWord) : (s.setCtr v).gpr = s.gpr := rfl
@[simp] theorem State.setCtr_fpr (v : DWord) : (s.setCtr v).fpr = s.fpr := rfl
@[simp] theorem State.setCtr_cr (v : DWord) : (s.setCtr v).cr = s.cr := rfl
@[simp] theorem State.setCtr_lr (v : DWord) : (s.setCtr v).lr = s.lr := rfl
@[simp] theorem State.setCtr_ctr (v : DWord) : (s.setCtr v).ctr = v := rfl
@[simp] theorem State.setCtr_xer (v : DWord) : (s.setCtr v).xer = s.xer := rfl
@[simp] theorem State.setCtr_fpscr (v : DWord) : (s.setCtr v).fpscr = s.fpscr := rfl
@[simp] theorem State.setCtr_pc (v : DWord) : (s.setCtr v).pc = s.pc := rfl
@[simp] theorem State.setCtr_insn (v : DWord) : (s.setCtr v).insn = s.insn := rfl
@[simp] theorem State.setCtr_single (v : DWord) : (s.setCtr v).single = s.single := rfl
@[simp] theorem State.setCtr_mem (v : DWord) : (s.setCtr v).mem = s.mem := rfl
@[simp] theorem State.setCtr_stored (v : DWord) : (s.setCtr v).stored = s.stored := rfl
@[simp] theorem State.setCtr_event (v : DWord) : (s.setCtr v).event = s.event := rfl
@[simp] theorem State.setCtr_undef (v : DWord) : (s.setCtr v).undef = s.undef := rfl
@[simp] theorem State.setCtr_begun (v : DWord) : (s.setCtr v).begun = s.begun := rfl
@[simp] theorem State.setCtr_env (v : DWord) : (s.setCtr v).env = s.env := rfl

/-! ## setXer -/

@[simp] theorem State.setXer_gpr (v : DWord) : (s.setXer v).gpr = s.gpr := rfl
@[simp] theorem State.setXer_fpr (v : DWord) : (s.setXer v).fpr = s.fpr := rfl
@[simp] theorem State.setXer_cr (v : DWord) : (s.setXer v).cr = s.cr := rfl
@[simp] theorem State.setXer_lr (v : DWord) : (s.setXer v).lr = s.lr := rfl
@[simp] theorem State.setXer_ctr (v : DWord) : (s.setXer v).ctr = s.ctr := rfl
@[simp] theorem State.setXer_xer (v : DWord) : (s.setXer v).xer = v := rfl
@[simp] theorem State.setXer_fpscr (v : DWord) : (s.setXer v).fpscr = s.fpscr := rfl
@[simp] theorem State.setXer_pc (v : DWord) : (s.setXer v).pc = s.pc := rfl
@[simp] theorem State.setXer_insn (v : DWord) : (s.setXer v).insn = s.insn := rfl
@[simp] theorem State.setXer_single (v : DWord) : (s.setXer v).single = s.single := rfl
@[simp] theorem State.setXer_mem (v : DWord) : (s.setXer v).mem = s.mem := rfl
@[simp] theorem State.setXer_stored (v : DWord) : (s.setXer v).stored = s.stored := rfl
@[simp] theorem State.setXer_event (v : DWord) : (s.setXer v).event = s.event := rfl
@[simp] theorem State.setXer_undef (v : DWord) : (s.setXer v).undef = s.undef := rfl
@[simp] theorem State.setXer_begun (v : DWord) : (s.setXer v).begun = s.begun := rfl
@[simp] theorem State.setXer_env (v : DWord) : (s.setXer v).env = s.env := rfl

/-! ## setFpscr -/

@[simp] theorem State.setFpscr_gpr (v : Word) : (s.setFpscr v).gpr = s.gpr := rfl
@[simp] theorem State.setFpscr_fpr (v : Word) : (s.setFpscr v).fpr = s.fpr := rfl
@[simp] theorem State.setFpscr_cr (v : Word) : (s.setFpscr v).cr = s.cr := rfl
@[simp] theorem State.setFpscr_lr (v : Word) : (s.setFpscr v).lr = s.lr := rfl
@[simp] theorem State.setFpscr_ctr (v : Word) : (s.setFpscr v).ctr = s.ctr := rfl
@[simp] theorem State.setFpscr_xer (v : Word) : (s.setFpscr v).xer = s.xer := rfl
@[simp] theorem State.setFpscr_fpscr (v : Word) : (s.setFpscr v).fpscr = v := rfl
@[simp] theorem State.setFpscr_pc (v : Word) : (s.setFpscr v).pc = s.pc := rfl
@[simp] theorem State.setFpscr_insn (v : Word) : (s.setFpscr v).insn = s.insn := rfl
@[simp] theorem State.setFpscr_single (v : Word) : (s.setFpscr v).single = s.single := rfl
@[simp] theorem State.setFpscr_mem (v : Word) : (s.setFpscr v).mem = s.mem := rfl
@[simp] theorem State.setFpscr_stored (v : Word) : (s.setFpscr v).stored = s.stored := rfl
@[simp] theorem State.setFpscr_event (v : Word) : (s.setFpscr v).event = s.event := rfl
@[simp] theorem State.setFpscr_undef (v : Word) : (s.setFpscr v).undef = s.undef := rfl
@[simp] theorem State.setFpscr_begun (v : Word) : (s.setFpscr v).begun = s.begun := rfl
@[simp] theorem State.setFpscr_env (v : Word) : (s.setFpscr v).env = s.env := rfl

/-! ## setPc -/

@[simp] theorem State.setPc_gpr (v : DWord) : (s.setPc v).gpr = s.gpr := rfl
@[simp] theorem State.setPc_fpr (v : DWord) : (s.setPc v).fpr = s.fpr := rfl
@[simp] theorem State.setPc_cr (v : DWord) : (s.setPc v).cr = s.cr := rfl
@[simp] theorem State.setPc_lr (v : DWord) : (s.setPc v).lr = s.lr := rfl
@[simp] theorem State.setPc_ctr (v : DWord) : (s.setPc v).ctr = s.ctr := rfl
@[simp] theorem State.setPc_xer (v : DWord) : (s.setPc v).xer = s.xer := rfl
@[simp] theorem State.setPc_fpscr (v : DWord) : (s.setPc v).fpscr = s.fpscr := rfl
@[simp] theorem State.setPc_pc (v : DWord) : (s.setPc v).pc = v := rfl
@[simp] theorem State.setPc_insn (v : DWord) : (s.setPc v).insn = s.insn := rfl
@[simp] theorem State.setPc_single (v : DWord) : (s.setPc v).single = s.single := rfl
@[simp] theorem State.setPc_mem (v : DWord) : (s.setPc v).mem = s.mem := rfl
@[simp] theorem State.setPc_stored (v : DWord) : (s.setPc v).stored = s.stored := rfl
@[simp] theorem State.setPc_event (v : DWord) : (s.setPc v).event = s.event := rfl
@[simp] theorem State.setPc_undef (v : DWord) : (s.setPc v).undef = s.undef := rfl
@[simp] theorem State.setPc_begun (v : DWord) : (s.setPc v).begun = s.begun := rfl
@[simp] theorem State.setPc_env (v : DWord) : (s.setPc v).env = s.env := rfl

/-! ## setInsn -/

@[simp] theorem State.setInsn_gpr (v : Word) : (s.setInsn v).gpr = s.gpr := rfl
@[simp] theorem State.setInsn_fpr (v : Word) : (s.setInsn v).fpr = s.fpr := rfl
@[simp] theorem State.setInsn_cr (v : Word) : (s.setInsn v).cr = s.cr := rfl
@[simp] theorem State.setInsn_lr (v : Word) : (s.setInsn v).lr = s.lr := rfl
@[simp] theorem State.setInsn_ctr (v : Word) : (s.setInsn v).ctr = s.ctr := rfl
@[simp] theorem State.setInsn_xer (v : Word) : (s.setInsn v).xer = s.xer := rfl
@[simp] theorem State.setInsn_fpscr (v : Word) : (s.setInsn v).fpscr = s.fpscr := rfl
@[simp] theorem State.setInsn_pc (v : Word) : (s.setInsn v).pc = s.pc := rfl
@[simp] theorem State.setInsn_insn (v : Word) : (s.setInsn v).insn = v := rfl
@[simp] theorem State.setInsn_single (v : Word) : (s.setInsn v).single = s.single := rfl
@[simp] theorem State.setInsn_mem (v : Word) : (s.setInsn v).mem = s.mem := rfl
@[simp] theorem State.setInsn_stored (v : Word) : (s.setInsn v).stored = s.stored := rfl
@[simp] theorem State.setInsn_event (v : Word) : (s.setInsn v).event = s.event := rfl
@[simp] theorem State.setInsn_undef (v : Word) : (s.setInsn v).undef = s.undef := rfl
@[simp] theorem State.setInsn_begun (v : Word) : (s.setInsn v).begun = s.begun := rfl
@[simp] theorem State.setInsn_env (v : Word) : (s.setInsn v).env = s.env := rfl

/-! ## drawn -/

@[simp] theorem State.drawn_gpr : (s.drawn).gpr = s.gpr := rfl
@[simp] theorem State.drawn_fpr : (s.drawn).fpr = s.fpr := rfl
@[simp] theorem State.drawn_cr : (s.drawn).cr = s.cr := rfl
@[simp] theorem State.drawn_lr : (s.drawn).lr = s.lr := rfl
@[simp] theorem State.drawn_ctr : (s.drawn).ctr = s.ctr := rfl
@[simp] theorem State.drawn_xer : (s.drawn).xer = s.xer := rfl
@[simp] theorem State.drawn_fpscr : (s.drawn).fpscr = s.fpscr := rfl
@[simp] theorem State.drawn_pc : (s.drawn).pc = s.pc := rfl
@[simp] theorem State.drawn_insn : (s.drawn).insn = s.insn := rfl
@[simp] theorem State.drawn_single : (s.drawn).single = s.single := rfl
@[simp] theorem State.drawn_mem : (s.drawn).mem = s.mem := rfl
@[simp] theorem State.drawn_stored : (s.drawn).stored = s.stored := rfl
@[simp] theorem State.drawn_event : (s.drawn).event = s.event := rfl
@[simp] theorem State.drawn_undef : (s.drawn).undef = s.undef + 1 := rfl
@[simp] theorem State.drawn_begun : (s.drawn).begun = s.begun := rfl
@[simp] theorem State.drawn_env : (s.drawn).env = s.env := rfl

/-! ## advance -/

@[simp] theorem State.advance_gpr : (s.advance).gpr = s.gpr := rfl
@[simp] theorem State.advance_fpr : (s.advance).fpr = s.fpr := rfl
@[simp] theorem State.advance_cr : (s.advance).cr = s.cr := rfl
@[simp] theorem State.advance_lr : (s.advance).lr = s.lr := rfl
@[simp] theorem State.advance_ctr : (s.advance).ctr = s.ctr := rfl
@[simp] theorem State.advance_xer : (s.advance).xer = s.xer := rfl
@[simp] theorem State.advance_fpscr : (s.advance).fpscr = s.fpscr := rfl
@[simp] theorem State.advance_pc : (s.advance).pc = s.iea (s.pc + 4) := rfl
@[simp] theorem State.advance_insn : (s.advance).insn = s.insn := rfl
@[simp] theorem State.advance_single : (s.advance).single = s.single := rfl
@[simp] theorem State.advance_mem : (s.advance).mem = s.mem := rfl
@[simp] theorem State.advance_stored : (s.advance).stored = s.stored := rfl
@[simp] theorem State.advance_event : (s.advance).event = s.event := rfl
@[simp] theorem State.advance_undef : (s.advance).undef = s.undef := rfl
@[simp] theorem State.advance_begun : (s.advance).begun = s.begun := rfl
@[simp] theorem State.advance_env : (s.advance).env = s.env := rfl

/-! ## inRun -/

@[simp] theorem State.inRun_gpr : (s.inRun).gpr = s.gpr := rfl
@[simp] theorem State.inRun_fpr : (s.inRun).fpr = s.fpr := rfl
@[simp] theorem State.inRun_cr : (s.inRun).cr = s.cr := rfl
@[simp] theorem State.inRun_lr : (s.inRun).lr = s.lr := rfl
@[simp] theorem State.inRun_ctr : (s.inRun).ctr = s.ctr := rfl
@[simp] theorem State.inRun_xer : (s.inRun).xer = s.xer := rfl
@[simp] theorem State.inRun_fpscr : (s.inRun).fpscr = s.fpscr := rfl
@[simp] theorem State.inRun_pc : (s.inRun).pc = s.pc := rfl
@[simp] theorem State.inRun_insn : (s.inRun).insn = s.insn := rfl
@[simp] theorem State.inRun_single : (s.inRun).single = s.single := rfl
@[simp] theorem State.inRun_mem : (s.inRun).mem = s.mem := rfl
@[simp] theorem State.inRun_stored : (s.inRun).stored = s.stored := rfl
@[simp] theorem State.inRun_event : (s.inRun).event = s.event := rfl
@[simp] theorem State.inRun_undef : (s.inRun).undef = s.undef := rfl
@[simp] theorem State.inRun_begun : (s.inRun).begun = true := rfl
@[simp] theorem State.inRun_env : (s.inRun).env = s.env := rfl

/-! ## storeByte -/

@[simp] theorem State.storeByte_gpr (ea : DWord) (b : Byte) : (s.storeByte ea b).gpr = s.gpr := rfl
@[simp] theorem State.storeByte_fpr (ea : DWord) (b : Byte) : (s.storeByte ea b).fpr = s.fpr := rfl
@[simp] theorem State.storeByte_cr (ea : DWord) (b : Byte) : (s.storeByte ea b).cr = s.cr := rfl
@[simp] theorem State.storeByte_lr (ea : DWord) (b : Byte) : (s.storeByte ea b).lr = s.lr := rfl
@[simp] theorem State.storeByte_ctr (ea : DWord) (b : Byte) : (s.storeByte ea b).ctr = s.ctr := rfl
@[simp] theorem State.storeByte_xer (ea : DWord) (b : Byte) : (s.storeByte ea b).xer = s.xer := rfl
@[simp] theorem State.storeByte_fpscr (ea : DWord) (b : Byte) : (s.storeByte ea b).fpscr = s.fpscr := rfl
@[simp] theorem State.storeByte_pc (ea : DWord) (b : Byte) : (s.storeByte ea b).pc = s.pc := rfl
@[simp] theorem State.storeByte_insn (ea : DWord) (b : Byte) : (s.storeByte ea b).insn = s.insn := rfl
@[simp] theorem State.storeByte_single (ea : DWord) (b : Byte) : (s.storeByte ea b).single = s.single := rfl
@[simp] theorem State.storeByte_mem (ea : DWord) (b : Byte) : (s.storeByte ea b).mem = s.mem.write (s.byteAddr ea) b := rfl
@[simp] theorem State.storeByte_stored (ea : DWord) (b : Byte) : (s.storeByte ea b).stored = addrInsert s.stored (s.byteAddr ea) := rfl
@[simp] theorem State.storeByte_event (ea : DWord) (b : Byte) : (s.storeByte ea b).event = s.event := rfl
@[simp] theorem State.storeByte_undef (ea : DWord) (b : Byte) : (s.storeByte ea b).undef = s.undef := rfl
@[simp] theorem State.storeByte_begun (ea : DWord) (b : Byte) : (s.storeByte ea b).begun = s.begun := rfl
@[simp] theorem State.storeByte_env (ea : DWord) (b : Byte) : (s.storeByte ea b).env = s.env := rfl

/-! ## Reading registers after a write -/

theorem State.gprOf_setGpr (r q : RegNum) (v : DWord) :
    (s.setGpr r v).gprOf q = if q = r then v else s.gprOf q := by
  have h : (r.toNat = q.toNat) ↔ q = r := by rw [← BitVec.toNat_inj]; exact eq_comm
  simp [State.gprOf, State.setGpr, Vector.getElem_set, h]

@[simp] theorem State.gprOf_setGpr_same (r : RegNum) (v : DWord) : (s.setGpr r v).gprOf r = v := by
  simp [State.gprOf_setGpr]

theorem State.gprOf_setGpr_other {r q : RegNum} (v : DWord) (h : q ≠ r) : (s.setGpr r v).gprOf q = s.gprOf q := by
  simp [State.gprOf_setGpr, h]

theorem State.fprOf_setFpr (r q : RegNum) (v : DWord) (b : Bool) :
    (s.setFpr r v b).fprOf q = if q = r then v else s.fprOf q := by
  have h : (r.toNat = q.toNat) ↔ q = r := by rw [← BitVec.toNat_inj]; exact eq_comm
  simp [State.fprOf, State.setFpr, Vector.getElem_set, h]

theorem State.singleOf_setFpr (r q : RegNum) (v : DWord) (b : Bool) :
    (s.setFpr r v b).singleOf q = if q = r then b else s.singleOf q := by
  have h : (r.toNat = q.toNat) ↔ q = r := by rw [← BitVec.toNat_inj]; exact eq_comm
  simp [State.singleOf, State.setFpr, Vector.getElem_set, h]

@[simp] theorem State.fprOf_setFpr_same (r : RegNum) (v : DWord) (b : Bool) : (s.setFpr r v b).fprOf r = v := by
  simp [State.fprOf_setFpr]

@[simp] theorem State.singleOf_setFpr_same (r : RegNum) (v : DWord) (b : Bool) :
    (s.setFpr r v b).singleOf r = b := by
  simp [State.singleOf_setFpr]

/-! ## The accessors depend on their own field only -/

theorem State.gprOf_congr {s t : State} (h : t.gpr = s.gpr) (r : RegNum) : t.gprOf r = s.gprOf r := by
  simp [State.gprOf, h]

theorem State.fprOf_congr {s t : State} (h : t.fpr = s.fpr) (r : RegNum) : t.fprOf r = s.fprOf r := by
  simp [State.fprOf, h]

theorem State.singleOf_congr {s t : State} (h : t.single = s.single) (r : RegNum) : t.singleOf r = s.singleOf r := by
  simp [State.singleOf, h]

theorem State.trunc_congr {s t : State} (h : t.env = s.env) (a : DWord) : t.trunc a = s.trunc a := by
  simp [State.trunc, h]

theorem State.iea_congr {s t : State} (h : t.env = s.env) (a : DWord) : t.iea a = s.iea a := by
  simp [State.iea, State.trunc, h]

theorem State.byteAddr_congr {s t : State} (h : t.env = s.env) (a : DWord) : t.byteAddr a = s.byteAddr a := by
  simp [State.byteAddr, State.trunc, h]

theorem State.byteAt_congr {s t : State} (he : t.env = s.env) (hm : t.mem = s.mem) (a : DWord) :
    t.byteAt a = s.byteAt a := by
  simp [State.byteAt, State.byteAddr_congr he, hm]

theorem State.loadBytes_congr {s t : State} (he : t.env = s.env) (hm : t.mem = s.mem) (a : DWord) (n : Nat) :
    t.loadBytes a n = s.loadBytes a n := by
  induction n generalizing a with
  | zero => rfl
  | succ n ih => simp [State.loadBytes, State.byteAt_congr he hm, ih]

theorem State.memRead_congr {s t : State} (he : t.env = s.env) (hm : t.mem = s.mem) (a : DWord) (n : Nat) :
    t.memRead a n = s.memRead a n := by
  simp [State.memRead, State.loadBytes_congr he hm, he]

theorem State.available_congr {s t : State} (he : t.env = s.env) (k : AccessKind) (a : DWord) (n : Nat) :
    t.available k a n = s.available k a n := by
  induction n generalizing a with
  | zero => rfl
  | succ n ih => simp [State.available, State.byteAvailable, State.trunc, he, ih]

/-! ## Instruction addresses -/

/-- `iea` is idempotent: what the pc invariant rests on. -/
theorem State.iea_iea (a : DWord) : s.iea (s.iea a) = s.iea a := by
  unfold State.iea State.trunc
  split
  · ext i; simp
  · ext i; simp only [BitVec.getElem_and]; grind

end Sys2Proof.Machine
end

