-- ==== Sys2Proof/Laws/Memory.lean ====
section
/-!
SUPPORT. Storage: a byte reads as last written, other bytes are left alone, and every operation keeps the canonical form.
-/
namespace Sys2Proof.Machine

/-! ## One byte -/

theorem Memory.read_of_lt {m : Memory} {lo a : Nat} (h : Memory.wfFrom lo m = true) (ha : a < lo) :
    Memory.read m a = Memory.unlisted := by
  induction m generalizing lo with
  | nil => rfl
  | cons c rest ih =>
    obtain ⟨b, v⟩ := c
    simp only [Memory.wfFrom, Bool.and_eq_true, decide_eq_true_eq] at h
    have hb : b ≠ a := by omega
    simp only [Memory.read, if_neg hb]
    exact ih h.2 (by omega)

theorem Memory.wfFrom_mono {m : Memory} {lo lo' : Nat} (h : Memory.wfFrom lo m = true) (hl : lo' ≤ lo) :
    Memory.wfFrom lo' m = true := by
  cases m with
  | nil => rfl
  | cons c rest =>
    obtain ⟨b, v⟩ := c
    simp only [Memory.wfFrom, Bool.and_eq_true, decide_eq_true_eq] at h ⊢
    exact ⟨⟨⟨by omega, h.1.1.2⟩, h.1.2⟩, h.2⟩

/-- A write keeps the canonical form. -/
theorem Memory.wfFrom_write {m : Memory} {lo a : Nat} (v : Byte) (h : Memory.wfFrom lo m = true) (hl : lo ≤ a)
    (ha : a < 2 ^ 64) : Memory.wfFrom lo (Memory.write m a v) = true := by
  induction m generalizing lo with
  | nil =>
    by_cases hv : v = Memory.unlisted <;> simp [Memory.write, Memory.wfFrom, hv, hl]
    omega
  | cons c rest ih =>
    obtain ⟨b, u⟩ := c
    have hw := h
    simp only [Memory.wfFrom, Bool.and_eq_true, decide_eq_true_eq] at hw
    obtain ⟨⟨⟨h1, h2⟩, h3⟩, h4⟩ := hw
    simp only [Memory.write]
    split
    · rename_i hab
      split
      · exact h
      · rename_i hv
        simp only [Memory.wfFrom, Bool.and_eq_true, decide_eq_true_eq, bne_iff_ne]
        exact ⟨⟨⟨hl, ha⟩, hv⟩, ⟨⟨by omega, h2⟩, by simpa using h3⟩, h4⟩
    · split
      · rename_i _ hab
        subst hab
        split
        · exact Memory.wfFrom_mono h4 (by omega)
        · rename_i hv
          simp only [Memory.wfFrom, Bool.and_eq_true, decide_eq_true_eq, bne_iff_ne]
          exact ⟨⟨⟨hl, ha⟩, hv⟩, h4⟩
      · simp only [Memory.wfFrom, Bool.and_eq_true, decide_eq_true_eq]
        exact ⟨⟨⟨h1, h2⟩, h3⟩, ih h4 (by omega)⟩

theorem Memory.wf_write {m : Memory} {a : Nat} (v : Byte) (h : m.wf = true) (ha : a < 2 ^ 64) :
    (m.write a v).wf = true :=
  Memory.wfFrom_write v h (Nat.zero_le a) ha

/-- Reading after a write, in a canonical memory. -/
theorem Memory.read_write_from {m : Memory} {lo a : Nat} (b : Nat) (v : Byte) (h : Memory.wfFrom lo m = true) :
    Memory.read (Memory.write m a v) b = if b = a then v else Memory.read m b := by
  induction m generalizing lo with
  | nil =>
    by_cases hb : b = a
    · subst hb
      by_cases hv : v = Memory.unlisted <;> simp [Memory.write, Memory.read, hv]
    · have hab : a ≠ b := fun e => hb e.symm
      by_cases hv : v = Memory.unlisted <;> simp [Memory.write, Memory.read, hv, hb, hab]
  | cons c rest ih =>
    obtain ⟨k, u⟩ := c
    have hw := h
    simp only [Memory.wfFrom, Bool.and_eq_true, decide_eq_true_eq] at hw
    obtain ⟨⟨⟨h1, h2⟩, h3⟩, h4⟩ := hw
    have below : ∀ x, x < k + 1 → Memory.read rest x = Memory.unlisted := fun x hx => Memory.read_of_lt h4 hx
    simp only [Memory.write]
    split
    · rename_i hak
      split
      · rename_i hv
        subst hv
        by_cases hb : b = a
        · have hkb : k ≠ b := by omega
          subst hb
          simp [Memory.read, hkb, below b (by omega)]
        · simp [hb]
      · by_cases hb : b = a
        · simp [Memory.read, hb]
        · have hab : a ≠ b := fun e => hb e.symm
          simp [Memory.read, hb, hab]
    · split
      · rename_i _ hak
        subst hak
        split
        · rename_i hv
          subst hv
          by_cases hb : b = a
          · subst hb
            simp [below b (by omega)]
          · have hab : a ≠ b := fun e => hb e.symm
            simp [Memory.read, hb, hab]
        · by_cases hb : b = a
          · simp [Memory.read, hb]
          · have hab : a ≠ b := fun e => hb e.symm
            simp [Memory.read, hb, hab]
      · rename_i hlt hne
        simp only [Memory.read, ih h4]
        by_cases hb : b = a
        · subst hb
          have hkb : k ≠ b := fun e => hne e.symm
          simp [hkb]
        · simp [hb]

theorem Memory.read_write {m : Memory} (a b : Nat) (v : Byte) (h : m.wf = true) :
    (m.write a v).read b = if b = a then v else m.read b :=
  Memory.read_write_from b v h

/-! ## The set of stored-to bytes -/

theorem addrsWfFrom_mono {l : List Nat} {lo lo' : Nat} (h : addrsWfFrom lo l = true) (hl : lo' ≤ lo) :
    addrsWfFrom lo' l = true := by
  cases l with
  | nil => rfl
  | cons b rest =>
    simp only [addrsWfFrom, Bool.and_eq_true, decide_eq_true_eq] at h ⊢
    exact ⟨⟨by omega, h.1.2⟩, h.2⟩

theorem addrsWfFrom_insert {l : List Nat} {lo a : Nat} (h : addrsWfFrom lo l = true) (hl : lo ≤ a) (ha : a < 2 ^ 64) :
    addrsWfFrom lo (addrInsert l a) = true := by
  induction l generalizing lo with
  | nil => simp only [addrInsert, addrsWfFrom, Bool.and_eq_true, decide_eq_true_eq]; exact ⟨⟨hl, ha⟩, trivial⟩
  | cons b rest ih =>
    have hw := h
    simp only [addrsWfFrom, Bool.and_eq_true, decide_eq_true_eq] at hw
    simp only [addrInsert]
    split
    · simp only [addrsWfFrom, Bool.and_eq_true, decide_eq_true_eq]
      exact ⟨⟨hl, ha⟩, ⟨by omega, hw.1.2⟩, hw.2⟩
    · split
      · exact h
      · simp only [addrsWfFrom, Bool.and_eq_true, decide_eq_true_eq]
        exact ⟨hw.1, ih hw.2 (by omega)⟩

theorem addrsWf_insert {l : List Nat} {a : Nat} (h : addrsWf l = true) (ha : a < 2 ^ 64) :
    addrsWf (addrInsert l a) = true :=
  addrsWfFrom_insert h (Nat.zero_le a) ha

theorem mem_addrInsert (l : List Nat) (a x : Nat) : x ∈ addrInsert l a ↔ x ∈ l ∨ x = a := by
  induction l with
  | nil => simp [addrInsert]
  | cons b rest ih =>
    simp only [addrInsert]
    split
    · simp only [List.mem_cons]; tauto
    · split
      · rename_i h; subst h; simp only [List.mem_cons]; tauto
      · simp only [List.mem_cons, ih]; tauto

/-! ## Bytes at effective addresses -/

theorem State.byteAddr_lt (s : State) (ea : DWord) : s.byteAddr ea < 2 ^ 64 := (_ : DWord).isLt

@[simp] theorem State.storeByte_byteAddr (s : State) (ea a : DWord) (b : Byte) :
    (s.storeByte ea b).byteAddr a = s.byteAddr a := rfl

theorem State.byteAt_storeByte (s : State) (ea a : DWord) (b : Byte) (h : s.mem.wf = true) :
    (s.storeByte ea b).byteAt a = if s.byteAddr a = s.byteAddr ea then b else s.byteAt a := by
  simp only [State.byteAt, State.storeByte_byteAddr, State.storeByte_mem, Memory.read_write _ _ _ h]

theorem State.storeByte_wf (s : State) (ea : DWord) (b : Byte) (h : s.mem.wf = true) :
    (s.storeByte ea b).mem.wf = true :=
  Memory.wf_write b h (s.byteAddr_lt ea)

/-- What storing a run of bytes leaves as it was: everything but storage and the set of stored-to bytes. -/
theorem State.storeBytes_frame (s : State) (ea : DWord) (bs : List Byte) :
    s.storeBytes ea bs =
      { s with mem := (s.storeBytes ea bs).mem, stored := (s.storeBytes ea bs).stored } := by
  induction bs generalizing s ea with
  | nil => rfl
  | cons b rest ih =>
    simp only [State.storeBytes]
    rw [ih]
    rfl

theorem State.storeBytes_wf (s : State) (ea : DWord) (bs : List Byte) (h : s.mem.wf = true) :
    (s.storeBytes ea bs).mem.wf = true := by
  induction bs generalizing s ea with
  | nil => exact h
  | cons b rest ih => exact ih _ _ (s.storeByte_wf ea b h)

theorem State.storeBytes_addrsWf (s : State) (ea : DWord) (bs : List Byte) (h : addrsWf s.stored = true) :
    addrsWf (s.storeBytes ea bs).stored = true := by
  induction bs generalizing s ea with
  | nil => exact h
  | cons b rest ih => exact ih _ _ (addrsWf_insert h (s.byteAddr_lt ea))

theorem State.storeBytes_byteAddr (s : State) (ea a : DWord) (bs : List Byte) :
    (s.storeBytes ea bs).byteAddr a = s.byteAddr a := by
  rw [State.storeBytes_frame]; rfl

/-- A byte whose address is none of those stored to reads as before. -/
theorem State.byteAt_storeBytes_other (s : State) (ea a : DWord) (bs : List Byte) (h : s.mem.wf = true)
    (ho : ∀ k, k < bs.length → s.byteAddr a ≠ s.byteAddr (ea + BitVec.ofNat 64 k)) :
    (s.storeBytes ea bs).byteAt a = s.byteAt a := by
  induction bs generalizing s ea with
  | nil => rfl
  | cons b rest ih =>
    rw [State.storeBytes, ih _ _ (s.storeByte_wf ea b h), State.byteAt_storeByte s ea a b h, if_neg]
    · simpa using ho 0 (by simp)
    · intro k hk
      have e : ea + 1 + BitVec.ofNat 64 k = ea + BitVec.ofNat 64 (k + 1) := by
        rw [BitVec.add_assoc]; congr 1; apply BitVec.eq_of_toNat_eq; simp [Nat.add_comm]
      simpa only [State.storeByte_byteAddr, e] using ho (k + 1) (by simpa using hk)

/-- The stored-to bytes after a run of bytes. -/
theorem State.mem_stored_storeBytes (s : State) (ea : DWord) (bs : List Byte) (x : Nat) :
    x ∈ (s.storeBytes ea bs).stored ↔
      x ∈ s.stored ∨ ∃ k, k < bs.length ∧ x = s.byteAddr (ea + BitVec.ofNat 64 k) := by
  induction bs generalizing s ea with
  | nil => simp [State.storeBytes]
  | cons b rest ih =>
    have e : ∀ k, ea + 1 + BitVec.ofNat 64 k = ea + BitVec.ofNat 64 (k + 1) := fun k => by
      rw [BitVec.add_assoc]; congr 1; apply BitVec.eq_of_toNat_eq; simp [Nat.add_comm]
    simp only [State.storeBytes, ih, State.storeByte_stored, mem_addrInsert, State.storeByte_byteAddr, e,
      List.length_cons]
    constructor
    · rintro ((h | h) | ⟨k, hk, h⟩)
      · exact .inl h
      · exact .inr ⟨0, by omega, by simpa using h⟩
      · exact .inr ⟨k + 1, by omega, h⟩
    · rintro (h | ⟨k, hk, h⟩)
      · exact .inl (.inl h)
      · cases k with
        | zero => exact .inl (.inr (by simpa using h))
        | succ k => exact .inr ⟨k, by omega, h⟩

theorem State.toBytesLow_length (n : Nat) (v : DWord) : (toBytesLow n v).length = n := by
  induction n generalizing v with
  | zero => rfl
  | succ n ih => simp [toBytesLow, ih]

theorem State.operandBytes_length (s : State) (n : Nat) (v : DWord) : (s.operandBytes n v).length = n := by
  unfold State.operandBytes
  split <;> simp [State.toBytesLow_length]

theorem State.loadBytes_length (s : State) (ea : DWord) (n : Nat) : (s.loadBytes ea n).length = n := by
  induction n generalizing ea with
  | zero => rfl
  | succ n ih => simp [State.loadBytes, ih]

/-- Once everything a store past its checks can do. -/
theorem State.memWrite_spec (s : State) (ea : DWord) (n : Nat) (v : DWord) (h : s.mem.wf = true) :
    s.memWrite ea n v = { s with mem := (s.memWrite ea n v).mem, stored := (s.memWrite ea n v).stored } ∧
    (s.memWrite ea n v).mem.wf = true ∧
    (∀ a, (∀ k, k < n → s.byteAddr a ≠ s.byteAddr (ea + BitVec.ofNat 64 k)) →
      (s.memWrite ea n v).byteAt a = s.byteAt a) ∧
    (∀ x, x ∈ (s.memWrite ea n v).stored ↔
      x ∈ s.stored ∨ ∃ k, k < n ∧ x = s.byteAddr (ea + BitVec.ofNat 64 k)) := by
  refine ⟨s.storeBytes_frame ea _, s.storeBytes_wf ea _ h, fun a ha => ?_, fun x => ?_⟩
  · exact s.byteAt_storeBytes_other ea a _ h (by rw [State.operandBytes_length]; exact ha)
  · have hs := s.mem_stored_storeBytes ea (s.operandBytes n v) x
    rw [State.operandBytes_length] at hs
    exact hs

/-! ## Reset -/

theorem State.reset_mem_wf : State.reset.mem.wf = true := by decide

theorem State.reset_stored_wf : addrsWf State.reset.stored = true := by decide

end Sys2Proof.Machine
end

