-- ==== Sys2Proof/Laws/Ops.lean ====
section
/-!
SUPPORT. For each shared operation, once, everything it can do.
-/
namespace Sys2Proof.Machine

/-! ## Condition Register -/

/-- A CR field after a CR field is written. -/
theorem State.crField_setCrField (s : State) (n m : BitVec 3) (v : BitVec 4) :
    (s.setCrField n v).crField m = if m = n then v else s.crField m := by
  have hn : n.toNat < 8 := n.isLt
  have hm : m.toNat < 8 := m.isLt
  by_cases h : m = n
  · subst h
    rw [if_pos rfl]
    exact fld_setFld_same s.cr v (by omega)
  · have hne : m.toNat ≠ n.toNat := fun e => h (BitVec.eq_of_toNat_eq e)
    rw [if_neg h]
    exact fld_setFld_disjoint s.cr v (by omega) (by omega) (by omega)

theorem State.otherCrFields_setCrField (s : State) (n : BitVec 3) (v : BitVec 4) :
    s.OtherCrFields (s.setCrField n v) n := fun m hm => by rw [State.crField_setCrField, if_neg hm]

/-- A bit of a CR field. -/
theorem State.bitAt_crField (s : State) (n : BitVec 3) {i : Nat} (hi : i < 4) :
    bitAt (s.crField n) i = bitAt s.cr (4 * n.toNat + i) := by
  have hn : n.toNat < 8 := n.isLt
  exact bitAt_fld s.cr hi (by omega)

theorem State.setCrField_frame (s : State) (n : BitVec 3) (v : BitVec 4) :
    s.setCrField n v = { s with cr := (s.setCrField n v).cr } := rfl

/-- Recording a result writes CR and nothing else. -/
theorem State.record_frame (s : State) (rc : Bool) (v : DWord) :
    s.record rc v = { s with cr := (s.record rc v).cr } := by
  cases rc <;> rfl

theorem signCode_bits {w : Nat} (x : BitVec w) :
    bitAt (signCode x) 0 = decide (x.toInt < 0) ∧ bitAt (signCode x) 1 = decide (0 < x.toInt) ∧
      bitAt (signCode x) 2 = decide (x.toInt = 0) := by
  rcases lt_trichotomy x.toInt 0 with h | h | h
  · have h1 : ¬ 0 < x.toInt := by omega
    have h2 : x.toInt ≠ 0 := by omega
    simp [signCode, h, h1, h2, bitAt]
  · simp [signCode, h, bitAt]
  · have h1 : ¬ x.toInt < 0 := by omega
    have h2 : x.toInt ≠ 0 := by omega
    simp [signCode, h, h1, h2, bitAt]

/-- The bits of a compare code followed by SO. -/
theorem bitAt_code (c : BitVec 3) (b : Bool) :
    bitAt (c ++ BitVec.ofBool b) 0 = bitAt c 0 ∧ bitAt (c ++ BitVec.ofBool b) 1 = bitAt c 1 ∧
      bitAt (c ++ BitVec.ofBool b) 2 = bitAt c 2 ∧ bitAt (c ++ BitVec.ofBool b) 3 = b := by
  revert c b; decide

/-- `SetCR0` records what `State.Recorded` says. -/
theorem State.recorded_record (s : State) (rc : Bool) (v : DWord) : s.Recorded (s.record rc v) rc v := by
  cases rc
  · rfl
  · have hf : (s.record true v).crField 0 =
        (if s.env.mode64 then signCode v else signCode (lowWord v)) ++ BitVec.ofBool s.so :=
      (s.crField_setCrField 0 0 _).trans (if_pos rfl)
    have hb : ∀ i, i < 4 → bitAt (s.record true v).cr i = bitAt ((s.record true v).crField 0) i := fun i hi => by
      have h := (s.record true v).bitAt_crField 0 hi
      have z : 4 * (0 : BitVec 3).toNat + i = i := by simp
      rw [z] at h
      exact h.symm
    have hc := bitAt_code (if s.env.mode64 then signCode v else signCode (lowWord v)) s.so
    have hs : bitAt (if s.env.mode64 then signCode v else signCode (lowWord v)) 0 = decide (s.signedView v < 0) ∧
        bitAt (if s.env.mode64 then signCode v else signCode (lowWord v)) 1 = decide (0 < s.signedView v) ∧
        bitAt (if s.env.mode64 then signCode v else signCode (lowWord v)) 2 = decide (s.signedView v = 0) := by
      unfold State.signedView
      split
      · exact signCode_bits v
      · exact signCode_bits (lowWord v)
    refine ⟨?_, ?_, ?_, ?_, ?_⟩
    · rw [hb 0 (by decide), hf, hc.1, hs.1]
    · rw [hb 1 (by decide), hf, hc.2.1, hs.2.1]
    · rw [hb 2 (by decide), hf, hc.2.2.1, hs.2.2]
    · rw [hb 3 (by decide), hf, hc.2.2.2]; rfl
    · exact s.otherCrFields_setCrField 0 _

/-- CR Field 1 records what `State.Recorded1` says. -/
theorem State.recorded1_record1 (s : State) (rc : Bool) : s.Recorded1 (s.record1 rc) rc := by
  cases rc
  · rfl
  · exact ⟨(s.crField_setCrField 1 1 _).trans (if_pos rfl), s.otherCrFields_setCrField 1 _⟩

theorem State.record1_frame (s : State) (rc : Bool) : s.record1 rc = { s with cr := (s.record1 rc).cr } := by
  cases rc <;> rfl

/-! ## Fixed-Point Exception Register -/

/-- `SetOV`: OV is written, SO is sticky, CA and every other bit stay. -/
theorem State.setOv_spec (s : State) (ov : Bool) :
    (s.setOv ov).ov = ov ∧ (s.setOv ov).so = (s.so || ov) ∧ (s.setOv ov).ca = s.ca ∧
      (∀ i, i < 64 → i ≠ 32 → i ≠ 33 → bitAt (s.setOv ov).xer i = bitAt s.xer i) := by
  have key : ∀ i, i < 64 → bitAt (s.setOv ov).xer i =
      if i = 32 then (s.so || ov) else if i = 33 then ov else bitAt s.xer i := fun i hi => by
    show bitAt (setBitAt (setBitAt s.xer 33 ov) 32 (s.so || ov)) i = _
    rw [bitAt_setBitAt _ _ hi (by decide), bitAt_setBitAt _ _ hi (by decide)]
  refine ⟨?_, ?_, ?_, fun i hi h1 h2 => ?_⟩
  · exact key 33 (by decide)
  · exact key 32 (by decide)
  · exact key 34 (by decide)
  · rw [key i hi, if_neg h1, if_neg h2]

/-- `SetCA`: CA is written and every other bit stays. -/
theorem State.setCa_spec (s : State) (c : Bool) :
    (s.setCa c).ca = c ∧ (s.setCa c).ov = s.ov ∧ (s.setCa c).so = s.so ∧
      (∀ i, i < 64 → i ≠ 34 → bitAt (s.setCa c).xer i = bitAt s.xer i) := by
  have key : ∀ i, i < 64 → bitAt (s.setCa c).xer i = if i = 34 then c else bitAt s.xer i := fun i hi => by
    show bitAt (setBitAt s.xer 34 c) i = _
    rw [bitAt_setBitAt _ _ hi (by decide)]
  refine ⟨?_, ?_, ?_, fun i hi h => ?_⟩
  · exact key 34 (by decide)
  · exact key 33 (by decide)
  · exact key 32 (by decide)
  · rw [key i hi, if_neg h]

theorem State.overflow_frame (s : State) (oe ov : Bool) : s.overflow oe ov = { s with xer := (s.overflow oe ov).xer } := by
  cases oe <;> rfl

theorem State.overflow_noted (s : State) (oe ov : Bool) : s.OverflowNoted (s.overflow oe ov) oe ov := by
  cases oe
  · exact ⟨rfl, by simp [State.overflow]⟩
  · exact ⟨(s.setOv_spec ov).1, by simpa [State.overflow] using (s.setOv_spec ov).2.1⟩

/-! ## Completing and raising -/

theorem finish_eq (s : State) : finish s = .next { s with pc := s.nextPc } := rfl

theorem raise_eq (e : Event) (s : State) : raise e s = .next { s with event := some e } := rfl

theorem raiseIllegal_spec (s : State) : RaisesIllegal (raiseIllegal s) s := rfl

/-- A GPR result: the register, CR Field 0, pc, and nothing else. -/
theorem writeResult_spec (r : RegNum) (v : DWord) (rc : Bool) (s : State) :
    WritesGpr (writeResult r v rc s) s r v rc := by
  refine ⟨((s.setGpr r v).record rc v).advance, rfl, ?_, ?_, ?_, ?_, ?_, ?_, ?_, ?_⟩
  · rw [State.record_frame]; exact s.gprOf_setGpr_same r v
  · exact (s.setGpr r v).recorded_record rc v
  · rw [State.record_frame]; rfl
  · rw [State.record_frame]; rfl
  · intro q hq; rw [State.record_frame]; exact s.gprOf_setGpr_other v hq
  · intro a; rw [State.record_frame]; rfl
  · rw [State.record_frame]; rfl
  · rw [State.record_frame]; rfl

/-- A branch: the link value if LK = 1, then the target or the next address. -/
theorem branchTo_eq (taken : Bool) (target : DWord) (lk : Bool) (s : State) :
    branchTo taken target lk s =
      .next { s with lr := if lk then s.nextPc else s.lr, pc := if taken then target else s.nextPc } := by
  cases lk <;> rfl

/-! ## Storage access -/

/-- Everything a checked access can do. -/
theorem checkedAccess_cases (kind : AccessKind) (ea : DWord) (n : Nat) (s : State) (k : Unit → Res) :
    (s.alignFault (s.trunc ea) n = true ∧
      checkedAccess kind ea n s k = .next { s with event := some (.alignment s.pc s.insn (s.trunc ea)) }) ∨
    (s.alignFault (s.trunc ea) n = false ∧ s.available kind ea n = false ∧
      checkedAccess kind ea n s k = .next { s with event := some (.dataStorage s.pc s.insn (s.trunc ea) kind) }) ∨
    (s.Accessible kind ea n ∧ checkedAccess kind ea n s k = k ()) := by
  unfold checkedAccess State.Accessible
  cases h1 : s.alignFault (s.trunc ea) n
  · cases h2 : s.available kind ea n
    · exact .inr (.inl ⟨rfl, rfl, rfl⟩)
    · exact .inr (.inr ⟨⟨rfl, rfl⟩, rfl⟩)
  · exact .inl ⟨rfl, rfl⟩

theorem checkedAccess_of_accessible {kind : AccessKind} {ea : DWord} {n : Nat} {s : State} (k : Unit → Res)
    (h : s.Accessible kind ea n) : checkedAccess kind ea n s k = k () := by
  simp [checkedAccess, h.1, h.2]

theorem loadThen_of_accessible {ea : DWord} {n : Nat} {s : State} (k : DWord → Res) (h : s.Accessible .load ea n) :
    loadThen ea n s k = k (s.memRead ea n) :=
  checkedAccess_of_accessible _ h

theorem storeThen_of_accessible {ea : DWord} {n : Nat} {s : State} (v : DWord) (k : State → Res)
    (h : s.Accessible .store ea n) : storeThen ea n v s k = k (s.memWrite ea n v) :=
  checkedAccess_of_accessible _ h

/-- Everything the checks of a multiple or string access can do. -/
theorem checkedMultiple_cases (kind : AccessKind) (words : Bool) (ea : DWord) (count : Nat) (s : State)
    (k : Unit → Res) :
    (checkedMultiple kind words ea count s k = .next { s with event := some (.alignment s.pc s.insn (s.trunc ea)) } ∧
      (s.env.le = true ∨ words = true ∧ s.alignFaultMultiple (s.trunc ea) = true)) ∨
    (∃ a, s.firstDenied kind (if words then 4 else 1) ea count = some a ∧
      checkedMultiple kind words ea count s k = .next { s with event := some (.dataStorage s.pc s.insn a kind) }) ∨
    (s.env.le = false ∧ s.firstDenied kind (if words then 4 else 1) ea count = none ∧
      checkedMultiple kind words ea count s k = k ()) := by
  unfold checkedMultiple
  cases h1 : s.env.le
  · by_cases h2 : (words && s.alignFaultMultiple (s.trunc ea)) = true
    · refine .inl ⟨?_, .inr (by simpa using h2)⟩
      simp only [Bool.false_eq_true, if_false, h2, if_true]
      rfl
    · simp only [Bool.false_eq_true, if_false, h2]
      cases h3 : s.firstDenied kind (if words then 4 else 1) ea count with
      | none => exact .inr (.inr ⟨trivial, rfl, rfl⟩)
      | some a => exact .inr (.inl ⟨a, rfl, rfl⟩)
  · exact .inl ⟨rfl, .inl rfl⟩

/-- No unit of a transfer is denied where every unit is available. -/
theorem State.firstDenied_eq_none (s : State) (kind : AccessKind) (size : Nat) (ea : DWord) (count : Nat) :
    s.firstDenied kind size ea count = none ↔
      ∀ k, k < count → s.available kind (ea + BitVec.ofNat 64 (size * k)) size = true := by
  induction count generalizing ea with
  | zero => simp [State.firstDenied]
  | succ n ih =>
    have e : ∀ k, ea + BitVec.ofNat 64 size + BitVec.ofNat 64 (size * k) = ea + BitVec.ofNat 64 (size * (k + 1)) :=
      fun k => by
        rw [BitVec.add_assoc]; congr 1; apply BitVec.eq_of_toNat_eq; simp [Nat.mul_succ, Nat.add_comm]
    unfold State.firstDenied
    cases h : s.available kind ea size
    · simp only [Bool.false_eq_true, if_false]
      exact ⟨fun f => (by cases f), fun f => (by have := f 0 (by omega); simp [h] at this)⟩
    · simp only [if_true, ih, e]
      constructor
      · intro f k hk
        cases k with
        | zero => simpa using h
        | succ k => exact f k (by omega)
      · intro f k hk
        exact f (k + 1) (by omega)

/-! ## FPSCR summaries and the end of a floating-point instruction -/

theorem fpscrSummed_bit (f : Word) {i : Nat} (hi : i < 32) :
    bitAt (fpscrSummed f) i = if i = 2 then fpscrVx f else if i = 1 then fpscrFex f else bitAt f i := by
  rw [fpscrSummed, bitAt_setBitAt _ _ hi (by decide), bitAt_setBitAt _ _ hi (by decide)]

theorem fpscrVx_bits (f : Word) :
    fpscrVx f = (bitAt f 7 || bitAt f 8 || bitAt f 9 || bitAt f 10 || bitAt f 11 || bitAt f 12 ||
      bitAt f 21 || bitAt f 22 || bitAt f 23) := by
  have six : ∀ x : BitVec 6, (x != 0) = (bitAt x 0 || bitAt x 1 || bitAt x 2 || bitAt x 3 || bitAt x 4 || bitAt x 5) := by
    decide
  have three : ∀ x : BitVec 3, (x != 0) = (bitAt x 0 || bitAt x 1 || bitAt x 2) := by decide
  rw [fpscrVx, six, three]
  simp only [bitAt_fld f (start := 7) (len := 6) (show 0 < 6 by decide) (by decide),
    bitAt_fld f (start := 7) (len := 6) (show 1 < 6 by decide) (by decide),
    bitAt_fld f (start := 7) (len := 6) (show 2 < 6 by decide) (by decide),
    bitAt_fld f (start := 7) (len := 6) (show 3 < 6 by decide) (by decide),
    bitAt_fld f (start := 7) (len := 6) (show 4 < 6 by decide) (by decide),
    bitAt_fld f (start := 7) (len := 6) (show 5 < 6 by decide) (by decide),
    bitAt_fld f (start := 21) (len := 3) (show 0 < 3 by decide) (by decide),
    bitAt_fld f (start := 21) (len := 3) (show 1 < 3 by decide) (by decide),
    bitAt_fld f (start := 21) (len := 3) (show 2 < 3 by decide) (by decide)]
  simp [Bool.or_assoc]

/-- After a write to the FPSCR its summaries hold. -/
theorem fpscrSummed_summaries (f : Word) : FpscrSummaries (fpscrSummed f) := by
  have b : ∀ i, i < 32 → i ≠ 1 → i ≠ 2 → bitAt (fpscrSummed f) i = bitAt f i := fun i hi h1 h2 => by
    rw [fpscrSummed_bit f hi, if_neg h2, if_neg h1]
  have v : bitAt (fpscrSummed f) 2 = fpscrVx f := fpscrSummed_bit f (by decide)
  have x : bitAt (fpscrSummed f) 1 = fpscrFex f := fpscrSummed_bit f (by decide)
  constructor
  · rw [v, fpscrVx_bits]
    simp only [b 7, b 8, b 9, b 10, b 11, b 12, b 21, b 22, b 23, Nat.reduceLT, ne_eq, Nat.reduceEqDiff,
      not_false_eq_true]
  · rw [x, v, fpscrFex]
    simp only [b 24, b 25, b 26, b 27, b 28, b 3, b 4, b 5, b 6, Nat.reduceLT, ne_eq, Nat.reduceEqDiff,
      not_false_eq_true]

/-- Where the summaries hold, recomputing them changes nothing. -/
theorem fpscrSummed_eq_self {f : Word} (h : FpscrSummaries f) : fpscrSummed f = f := by
  apply eq_of_bitAt_eq
  intro i hi
  rw [fpscrSummed_bit f hi]
  have hv : fpscrVx f = bitAt f 2 := (fpscrVx_bits f).trans h.1.symm
  split
  · rename_i e; rw [e, hv]
  · split
    · rename_i e; rw [e, h.2, fpscrFex, hv]
    · rfl

theorem fpEndStatus_summaries (old new : Word) : FpscrSummaries (fpEndStatus old new) :=
  fpscrSummed_summaries _

theorem fpWrite_summaries (f mask v : Word) : FpscrSummaries (fpWrite f mask v) := fpscrSummed_summaries _

/-- The end of a floating-point instruction: pc, and the event if an enabled exception was caused. -/
theorem fpComplete_eq (caused : Bool) (s : State) :
    fpComplete caused s = .next { s with pc := s.nextPc, event := s.enabledEvent caused } := by
  unfold fpComplete State.enabledEvent
  split <;> rfl

theorem fpGuard_of_ieee {s : State} (k : Unit → Res) (h : s.Ieee) : fpGuard s k = k () := by
  have h' : (s.env.hasNiMode && bitAt s.fpscr 29) = false := h
  simp [fpGuard, h']

/-- What a computational instruction leaves: its target, FPSCR, CR Field 1, and nothing else. -/
theorem fpApply_frame (frt : RegNum) (single rc : Bool) (o : FpOutcome) (s : State) :
    fpApply frt single rc o s =
      { s with fpr := (fpApply frt single rc o s).fpr, single := (fpApply frt single rc o s).single,
               fpscr := fpEndStatus s.fpscr o.fpscr, cr := (fpApply frt single rc o s).cr } := by
  unfold fpApply State.setFprIf
  cases o.frt <;> cases rc <;> rfl

/-- The target of a computational instruction: the result if there is one, else what it held. -/
theorem fpApply_fprOf (frt q : RegNum) (single rc : Bool) (o : FpOutcome) (s : State) :
    (fpApply frt single rc o s).fprOf q = if q = frt then o.frt.getD (s.fprOf q) else s.fprOf q := by
  unfold fpApply State.setFprIf
  rw [State.record1_frame]
  cases o.frt with
  | none => simp only [Option.getD_none, ite_self]; rfl
  | some x => exact s.fprOf_setFpr frt q x single

end Sys2Proof.Machine
end

