-- ==== Sys2Proof/Laws/Rounding.lean ====
section
/-!
SUPPORT. Exact numbers and their rounding over the real numbers: what a `Dyadic` and a `Magnitude` stand for, and that
`roundQ` rounds as `RoundsAt` says.
-/
namespace Sys2Proof.Machine

/-- The number a dyadic stands for. -/
def Dyadic.toRat (x : Dyadic) : ℚ := x.num * (2 : ℚ) ^ x.exp

theorem fpRat_eq_toRat (x : DWord) : fpRat x = (fpVal x).toRat := rfl

theorem Dyadic.toRat_mul (x y : Dyadic) : (x.mul y).toRat = x.toRat * y.toRat := by
  simp only [Dyadic.toRat, Dyadic.mul, Int.cast_mul, zpow_add₀ (two_ne_zero' ℚ)]
  ring

/-- A shift to a smaller exponent keeps the number. -/
theorem zpow_shift (n e d : Int) (h : d ≤ e) : ((n * 2 ^ (e - d).toNat : Int) : ℚ) * 2 ^ d = n * 2 ^ e := by
  have : ((2 : ℚ) ^ (e - d).toNat) * 2 ^ d = 2 ^ e := by
    rw [← zpow_natCast, ← zpow_add₀ two_ne_zero, Int.toNat_of_nonneg (sub_nonneg.mpr h), sub_add_cancel]
  rw [← this]
  push_cast
  ring

theorem Dyadic.toRat_add (x y : Dyadic) : (x.add y).toRat = x.toRat + y.toRat := by
  simp only [Dyadic.toRat, Dyadic.add]
  rw [Int.cast_add, add_mul, zpow_shift _ _ _ (min_le_left _ _), zpow_shift _ _ _ (min_le_right _ _)]

theorem Dyadic.le_iff (x y : Dyadic) : x.le y = true ↔ x.toRat ≤ y.toRat := by
  have hp : (0 : ℚ) < 2 ^ min x.exp y.exp := by positivity
  simp only [Dyadic.le, Dyadic.toRat, decide_eq_true_eq]
  rw [← zpow_shift x.num _ _ (min_le_left _ _), ← zpow_shift y.num _ _ (min_le_right _ _), mul_le_mul_iff_left₀ hp,
    Int.cast_le]

theorem Dyadic.same_iff (x y : Dyadic) : x.same y ↔ x.toRat = y.toRat := by
  rw [Dyadic.same, Dyadic.le_iff, Dyadic.le_iff, le_antisymm_iff]

/-- What a magnitude says of the number `v` it was computed from. -/
def Magnitude.Describes (m : Magnitude) (v : ℝ) : Prop :=
  if m.sticky then m.sig * (2 : ℝ) ^ m.exp < v ∧ v < (m.sig + 1) * (2 : ℝ) ^ m.exp else v = m.sig * (2 : ℝ) ^ m.exp

theorem Dyadic.magnitude_describes (x : Dyadic) : x.magnitude.Describes |(x.toRat : ℝ)| := by
  have hp : (0 : ℝ) < 2 ^ x.exp := by positivity
  simp [Magnitude.Describes, Dyadic.magnitude, Dyadic.toRat, abs_mul, Nat.cast_natAbs]

theorem fpMagnitude_describes (x : DWord) : (fpMagnitude x).Describes |(fpRat x : ℝ)| := by
  have h := (fpVal x).magnitude_describes
  have hm : (fpVal x).magnitude = fpMagnitude x := by
    simp only [Dyadic.magnitude, fpMagnitude, fpVal]
    split <;> simp
  rwa [hm, ← fpRat_eq_toRat] at h

/-- `abs(Val(x))` is the significand in its weight. -/
theorem abs_fpRat (x : DWord) : |(fpRat x : ℝ)| = fpSig x * (2 : ℝ) ^ fpWeight x := fpMagnitude_describes x

/-- The quotient that a divide rounds describes the exact one. -/
theorem fpQuotient_describes (a b : DWord) (hb : fpSig b ≠ 0) :
    (fpQuotient a b).Describes |(fpRat a : ℝ) / fpRat b| := by
  have hb' : (0 : ℝ) < fpSig b := by exact_mod_cast Nat.pos_of_ne_zero hb
  set n := fpSig a * 2 ^ 128 with hn
  have hu : (0 : ℝ) < (2 : ℝ) ^ (fpWeight a - fpWeight b - 128) := by positivity
  have hv : |(fpRat a : ℝ) / fpRat b| = (n / fpSig b : ℝ) * 2 ^ (fpWeight a - fpWeight b - 128) := by
    rw [abs_div, abs_fpRat, abs_fpRat, hn, zpow_sub₀ two_ne_zero, zpow_sub₀ two_ne_zero]
    push_cast
    field_simp
    norm_num
  have hdiv : ((n / fpSig b : ℕ) : ℝ) * fpSig b + (n % fpSig b : ℕ) = n := by exact_mod_cast Nat.div_add_mod' n (fpSig b)
  have hmod : ((n % fpSig b : ℕ) : ℝ) < fpSig b := by exact_mod_cast Nat.mod_lt n (Nat.pos_of_ne_zero hb)
  simp only [Magnitude.Describes, fpQuotient, ← hn, hv, bne_iff_ne, ne_eq]
  rw [mul_lt_mul_iff_left₀ hu, mul_lt_mul_iff_left₀ hu, mul_left_inj' hu.ne', lt_div_iff₀ hb', div_lt_iff₀ hb',
    div_eq_iff hb'.ne']
  split
  · next hr =>
    have : (0 : ℝ) < (n % fpSig b : ℕ) := by exact_mod_cast Nat.pos_of_ne_zero hr
    constructor <;> linarith
  · next hr =>
    rw [not_not.mp hr, Nat.cast_zero, add_zero] at hdiv
    exact hdiv.symm

/-- The remainder of a truncation to multiples of `2^q`, in units of `2^exp`: an integer part and, if sticky, a fraction. -/
theorem Magnitude.Describes.split {m : Magnitude} {v : ℝ} (h : m.Describes v) (q : Int) :
    ∃ δ : ℝ, 0 ≤ δ ∧ δ < 1 ∧ (m.sticky = true ↔ δ ≠ 0) ∧
      v = (scale m.sig (m.exp - q) : ℕ) * (2 : ℝ) ^ q + ((m.sig % 2 ^ (q - m.exp).toNat : ℕ) + δ) * (2 : ℝ) ^ m.exp := by
  have hu : (0 : ℝ) < 2 ^ m.exp := by positivity
  have exact : (scale m.sig (m.exp - q) : ℝ) * 2 ^ q + (m.sig % 2 ^ (q - m.exp).toNat : ℕ) * 2 ^ m.exp =
      m.sig * 2 ^ m.exp := by
    unfold scale
    split
    · next hle =>
      rw [Int.toNat_of_nonpos (by omega : q - m.exp ≤ 0), pow_zero, Nat.mod_one, Nat.cast_zero, zero_mul, add_zero,
        Nat.cast_mul, Nat.cast_pow, Nat.cast_ofNat, ← zpow_natCast, mul_assoc, ← zpow_add₀ two_ne_zero,
        Int.toNat_of_nonneg hle, sub_add_cancel]
    · next hlt =>
      have hk : -(m.exp - q) = q - m.exp := by ring
      have hpow : (2 : ℝ) ^ q = 2 ^ (q - m.exp).toNat * 2 ^ m.exp := by
        rw [← zpow_natCast, ← zpow_add₀ two_ne_zero, Int.toNat_of_nonneg (by omega), sub_add_cancel]
      rw [hk, hpow, ← mul_assoc, ← add_mul]
      congr 1
      exact_mod_cast Nat.div_add_mod' m.sig (2 ^ (q - m.exp).toNat)
  unfold Magnitude.Describes at h
  split at h
  · next hs =>
    refine ⟨v / 2 ^ m.exp - m.sig, ?_, ?_, ?_, ?_⟩
    · rw [sub_nonneg, le_div_iff₀ hu]; exact h.1.le
    · rw [sub_lt_iff_lt_add', div_lt_iff₀ hu]; exact h.2
    · refine iff_of_true hs (ne_of_gt ?_)
      rw [sub_pos, lt_div_iff₀ hu]; exact h.1
    · rw [add_mul, ← add_assoc, exact, sub_mul, div_mul_cancel₀ v hu.ne']; ring
  · next hs => exact ⟨0, le_rfl, one_pos, iff_of_false hs (by simp), by rw [add_zero, exact, h]⟩

/-- `roundQ` rounds, as R523 says, every number that its argument describes; one that is described by its bounds alone is
rounded to a larger unit than they are given in. -/
theorem roundQ_roundsAt (s : Bool) (m : Magnitude) (q : Int) (mode : BitVec 2) (v : ℝ) (h : m.Describes v)
    (hq : m.sticky = true → m.exp < q) : RoundsAt s v q mode (roundQ s m q mode) := by
  obtain ⟨δ, hδ0, hδ1, hst, hv⟩ := h.split q
  have hu : (0 : ℝ) < 2 ^ m.exp := by positivity
  have hsf : m.sticky = false ↔ δ = 0 := by rw [Bool.eq_false_iff, Ne, hst, not_not]
  set low := m.sig % 2 ^ (q - m.exp).toNat with hlow
  set k := (q - m.exp).toNat with hk
  set t := scale m.sig (m.exp - q) with ht
  have hlt : low < 2 ^ k := Nat.mod_lt _ (by positivity)
  have bounds : (low + δ) * 2 ^ m.exp < 2 ^ q ∧
      (2 ^ q < 2 * ((low + δ) * 2 ^ m.exp) ↔ 2 ^ k < 2 * low ∨ (2 ^ k = 2 * low ∧ m.sticky = true)) ∧
      (2 * ((low + δ) * 2 ^ m.exp) = 2 ^ q ↔ 2 ^ k = 2 * low ∧ m.sticky = false) := by
    rcases lt_or_ge m.exp q with hlt' | hge
    · obtain ⟨j, hj⟩ : ∃ j, 2 ^ k = 2 * j := ⟨2 ^ (k - 1), by rw [← pow_succ', Nat.sub_add_cancel (by omega)]⟩
      have hpow : (2 : ℝ) ^ q = (2 * j : ℕ) * 2 ^ m.exp := by
        rw [← hj, Nat.cast_pow, Nat.cast_ofNat, ← zpow_natCast, ← zpow_add₀ two_ne_zero, hk,
          Int.toNat_of_nonneg (by omega), sub_add_cancel]
      rw [hpow, ← mul_assoc, mul_lt_mul_iff_left₀ hu, mul_lt_mul_iff_left₀ hu, mul_left_inj' hu.ne', hj, hst,
        hsf]
      push_cast
      refine ⟨?_, ?_, ?_⟩
      · have : (low : ℝ) + 1 ≤ 2 * j := by exact_mod_cast hj ▸ hlt
        linarith
      · rcases lt_trichotomy j low with hjl | rfl | hjl
        · have : (j : ℝ) < low := by exact_mod_cast hjl
          exact iff_of_true (by linarith) (.inl (by omega))
        · rw [← sub_pos, show (2 : ℝ) * (low + δ) - 2 * low = 2 * δ by ring]
          have := hδ0.lt_iff_ne'
          simp [this]
        · have : (low : ℝ) + 1 ≤ j := by exact_mod_cast hjl
          exact iff_of_false (by linarith) (by omega)
      · constructor
        · intro he
          have hle : low ≤ j := by exact_mod_cast (by linarith : (low : ℝ) ≤ j)
          have hge : j < low + 1 := by exact_mod_cast (by linarith : (j : ℝ) < low + 1)
          have : j = low := by omega
          subst this
          exact ⟨rfl, by linarith⟩
        · rintro ⟨he, hd⟩
          have : j = low := by omega
          rw [this, hd, add_zero]
    · have hk0 : k = 0 := by omega
      have hs : m.sticky = false := Bool.eq_false_iff.mpr fun h => absurd (hq h) (by omega)
      have hd : δ = 0 := by
        by_contra h
        simp [hst.mpr h] at hs
      have hl : low = 0 := by
        rw [hk0] at hlt
        omega
      have hp : (0 : ℝ) < 2 ^ q := by positivity
      simp [hk0, hs, hd, hl, hp, hp.le, hp.ne]
  have hrem : (low + δ) * 2 ^ m.exp ≠ 0 ↔ low ≠ 0 ∨ m.sticky = true := by
    rw [hst, mul_ne_zero_iff, and_iff_left hu.ne']
    constructor
    · intro hne
      by_contra! hz
      exact hne (by rw [hz.1, hz.2]; simp)
    · rintro (hl | hd)
      · have : (0 : ℝ) < low := by exact_mod_cast Nat.pos_of_ne_zero hl
        positivity
      · have := lt_of_le_of_ne hδ0 hd.symm
        positivity
  have hmode : mode = 0 ∨ mode = 1 ∨ mode = 2 ∨ mode = 3 := by revert mode; decide
  refine ⟨t, (low + δ) * 2 ^ m.exp, hv, by positivity, bounds.1, ?_, ?_, rfl⟩
  · rw [hrem]; simp [roundQ, ← hlow, ← hk]
  · rw [bounds.2.1, bounds.2.2, hrem]
    rcases hmode with rfl | rfl | rfl | rfl <;> cases hs : m.sticky <;> cases s <;>
      simp [roundQ, roundUp, ← hlow, ← hk, ← ht, hs]

end Sys2Proof.Machine
end

