-- ==== Sys2Proof/Tests/Slice0.lean ====
section
/-!
SUPPORT. Tests: words laid out from the spec's boxes, rows of its test vectors, the ill-formed terms,
      and the witnesses of
the statements' hypotheses.
-/
namespace Sys2Proof.Tests

open Sys2Proof.Machine

set_option Elab.async false

/-! ## Helpers -/

/-- One fact of a test vector's Before or After column. -/
inductive Item where
  | g (r : RegNum) (v : DWord)
  | f (r : RegNum) (v : DWord)
  | sp (r : RegNum) (v : Bool)
  | cr (v : Word)
  | lr (v : DWord)
  | ctr (v : DWord)
  | xer (v : DWord)
  | fpscr (v : Word)
  | pc (v : DWord)
  | m (a : Nat) (bytes : List Byte)
  | hasMcrxr

/-- Bytes placed in storage. -/
def putBytes (mem : Memory) (a : Nat) : List Byte → Memory
  | [] => mem
  | b :: rest => putBytes (mem.write a b) (a + 1) rest

/-- The bytes of storage are these. -/
def hasBytes (mem : Memory) (a : Nat) : List Byte → Bool
  | [] => true
  | b :: rest => mem.read a == b && hasBytes mem (a + 1) rest

/-- A state with one more fact. -/
def put (s : State) : Item → State
  | .g r v => s.setGpr r v
  | .f r v => s.setFpr r v (s.singleOf r)
  | .sp r v => s.setFpr r (s.fprOf r) v
  | .cr v => s.setCr v
  | .lr v => s.setLr v
  | .ctr v => s.setCtr v
  | .xer v => s.setXer v
  | .fpscr v => s.setFpscr v
  | .pc v => s.setPc v
  | .m a bs => { s with mem := putBytes s.mem a bs }
  | .hasMcrxr => { s with env := { s.env with hasMcrxr := true } }

/-- The fact holds. -/
def holds (s : State) : Item → Bool
  | .g r v => s.gprOf r == v
  | .f r v => s.fprOf r == v
  | .sp r v => s.singleOf r == v
  | .cr v => s.cr == v
  | .lr v => s.lr == v
  | .ctr v => s.ctr == v
  | .xer v => s.xer == v
  | .fpscr v => s.fpscr == v
  | .pc v => s.pc == v
  | .m a bs => hasBytes s.mem a bs
  | .hasMcrxr => s.env.hasMcrxr

/-- The reset machine at 0x1000 with the facts `before`,
      the word `w` next (spec/95_test_vectors_fx.md's conventions). -/
def start (mode64 : Bool) (w : Nat) (before : List Item) : State :=
  (before.foldl put { State.reset with pc := 0x1000, env := { Env.reset with mode64 := mode64 } }).withFetchWord 32 w

/-- One step ends with no event and the facts `after`. -/
def gives (mode64 : Bool) (w : Nat) (before after : List Item) : Bool :=
  match step (start mode64 w before) with
  | .next t => t.event.isNone && after.all (holds t)
  | _ => false

/-- One step raises this event and changes no register and no storage. -/
def raises (mode64 : Bool) (w : Nat) (before : List Item) (e : Event) : Bool :=
  match step (start mode64 w before) with
  | .next t => t == { start mode64 w before with begun := true, insn := BitVec.ofNat 32 w, event := some e }
  | _ => false

/-! ## Decoding: every constructor -/

/-- Words laid out from the boxes of spec/40_branch.md and the split fields of 30_encoding.md R141. -/
theorem test_decode_branch_1 :
    decode 0x4125FFF2 = .ok (.bc 9 5 0x3ffc true false) ∧
    decode 0x44000822 = .ok (.sc 0x41 true) ∧
    decode 0x4A00048E = .ok (.b 0x800123 true false) ∧
    decode 0x4D180000 = .ok (.mcrf 2 6) ∧
    decode 0x4F541021 = .ok (.bclr 26 20 2 true) ∧
    decode 0x4D892842 = .ok (.crnor 12 9 5) ∧
    decode 0x4C7ED102 = .ok (.crandc 3 30 26) ∧
    decode 0x4E916182 = .ok (.crxor 20 17 12) ∧
    decode 0x4D2519C2 = .ok (.crnand 9 5 3) ∧
    decode 0x4FDAA202 = .ok (.crand 30 26 20) ∧
    decode 0x4E2C4A42 = .ok (.creqv 17 12 9) ∧
    decode 0x4CA3F342 = .ok (.crorc 5 3 30) := by
  decide

/-- Words laid out from the boxes of spec/40_branch.md and the split fields of 30_encoding.md R141. -/
theorem test_decode_branch_2 :
    decode 0x4F548B82 = .ok (.cror 26 20 17) ∧
    decode 0x4D891420 = .ok (.bcctr 12 9 2 false) := by
  decide

/-- Words laid out from the boxes of spec/41_fx_load_store.md and the split fields of 30_encoding.md R141. -/
theorem test_decode_load_store_1 :
    decode 0x7D89282A = .ok (.ldx 12 9 5) ∧
    decode 0x7C7ED02E = .ok (.lwzx 3 30 26) ∧
    decode 0x7D89286A = .ok (.ldux 12 9 5) ∧
    decode 0x7C7ED06E = .ok (.lwzux 3 30 26) ∧
    decode 0x7F5488AE = .ok (.lbzx 26 20 17) ∧
    decode 0x7C7ED0EE = .ok (.lbzux 3 30 26) ∧
    decode 0x7D89292A = .ok (.stdx 12 9 5) ∧
    decode 0x7C7ED12E = .ok (.stwx 3 30 26) ∧
    decode 0x7E91616A = .ok (.stdux 20 17 12) ∧
    decode 0x7D25196E = .ok (.stwux 9 5 3) ∧
    decode 0x7CA3F1AE = .ok (.stbx 5 3 30) ∧
    decode 0x7D2519EE = .ok (.stbux 9 5 3) := by
  decide

/-- Words laid out from the boxes of spec/41_fx_load_store.md and the split fields of 30_encoding.md R141. -/
theorem test_decode_load_store_2 :
    decode 0x7E2C4A2E = .ok (.lhzx 17 12 9) ∧
    decode 0x7F548A6E = .ok (.lhzux 26 20 17) ∧
    decode 0x7E9162AA = .ok (.lwax 20 17 12) ∧
    decode 0x7D251AAE = .ok (.lhax 9 5 3) ∧
    decode 0x7FDAA2EA = .ok (.lwaux 30 26 20) ∧
    decode 0x7E2C4AEE = .ok (.lhaux 17 12 9) ∧
    decode 0x7CA3F32E = .ok (.sthx 5 3 30) ∧
    decode 0x7C7ED36E = .ok (.sthux 3 30 26) ∧
    decode 0x8125FFF0 = .ok (.lwz 9 5 0xfff0) ∧
    decode 0x87DA1234 = .ok (.lwzu 30 26 0x1234) ∧
    decode 0x8A2C8001 = .ok (.lbz 17 12 0x8001) ∧
    decode 0x8CA37FFE = .ok (.lbzu 5 3 0x7ffe) := by
  decide

/-- Words laid out from the boxes of spec/41_fx_load_store.md and the split fields of 30_encoding.md R141. -/
theorem test_decode_load_store_3 :
    decode 0x9354FFF0 = .ok (.stw 26 20 0xfff0) ∧
    decode 0x95891234 = .ok (.stwu 12 9 0x1234) ∧
    decode 0x987E8001 = .ok (.stb 3 30 0x8001) ∧
    decode 0x9E917FFE = .ok (.stbu 20 17 0x7ffe) ∧
    decode 0xA125FFF0 = .ok (.lhz 9 5 0xfff0) ∧
    decode 0xA7DA1234 = .ok (.lhzu 30 26 0x1234) ∧
    decode 0xAA2C8001 = .ok (.lha 17 12 0x8001) ∧
    decode 0xACA37FFE = .ok (.lhau 5 3 0x7ffe) ∧
    decode 0xB354FFF0 = .ok (.sth 26 20 0xfff0) ∧
    decode 0xB5891234 = .ok (.sthu 12 9 0x1234) ∧
    decode 0xE925FFF0 = .ok (.ld 9 5 0x3ffc) ∧
    decode 0xEBDA048D = .ok (.ldu 30 26 0x123) := by
  decide

/-- Words laid out from the boxes of spec/41_fx_load_store.md and the split fields of 30_encoding.md R141. -/
theorem test_decode_load_store_4 :
    decode 0xEA2C8006 = .ok (.lwa 17 12 0x2001) ∧
    decode 0xF87E8004 = .ok (.std 3 30 0x2001) ∧
    decode 0xFA917FF9 = .ok (.stdu 20 17 0x1ffe) := by
  decide

/-- Words laid out from the boxes of spec/42_fx_multiple_string.md and the split fields of 30_encoding.md R141. -/
theorem test_decode_multiple_string_1 :
    decode 0x7E91642A = .ok (.lswx 20 17 12) ∧
    decode 0x7D251C2C = .ok (.lwbrx 9 5 3) ∧
    decode 0x7D892CAA = .ok (.lswi 12 9 5) ∧
    decode 0x7D251D2A = .ok (.stswx 9 5 3) ∧
    decode 0x7FDAA52C = .ok (.stwbrx 30 26 20) ∧
    decode 0x7F548DAA = .ok (.stswi 26 20 17) ∧
    decode 0x7E91662C = .ok (.lhbrx 20 17 12) ∧
    decode 0x7CA3F72C = .ok (.sthbrx 5 3 30) ∧
    decode 0xB87E8001 = .ok (.lmw 3 30 0x8001) ∧
    decode 0xBE917FFE = .ok (.stmw 20 17 0x7ffe) := by
  decide

/-- Words laid out from the boxes of spec/43_fx_arith.md and the split fields of 30_encoding.md R141. -/
theorem test_decode_arith_1 :
    decode 0x1D25FFF0 = .ok (.mulli 9 5 0xfff0) ∧
    decode 0x23DA1234 = .ok (.subfic 30 26 0x1234) ∧
    decode 0x3354FFF0 = .ok (.addic 26 20 0xfff0) ∧
    decode 0x35891234 = .ok (.addicRec 12 9 0x1234) ∧
    decode 0x387E8001 = .ok (.addi 3 30 0x8001) ∧
    decode 0x3E917FFE = .ok (.addis 20 17 0x7ffe) ∧
    decode 0x7E916411 = .ok (.subfc 20 17 12 true true) ∧
    decode 0x7D251812 = .ok (.mulhdu 9 5 3 false) ∧
    decode 0x7FDAA415 = .ok (.addc 30 26 20 true true) ∧
    decode 0x7E2C4816 = .ok (.mulhwu 17 12 9 false) ∧
    decode 0x7F548850 = .ok (.subf 26 20 17 false false) ∧
    decode 0x7E2C4892 = .ok (.mulhd 17 12 9 false) := by
  decide

/-- Words laid out from the boxes of spec/43_fx_arith.md and the split fields of 30_encoding.md R141. -/
theorem test_decode_arith_2 :
    decode 0x7CA3F097 = .ok (.mulhw 5 3 30 true) ∧
    decode 0x7D8904D1 = .ok (.neg 12 9 true true) ∧
    decode 0x7FDAA511 = .ok (.subfe 30 26 20 true true) ∧
    decode 0x7E2C4914 = .ok (.adde 17 12 9 false false) ∧
    decode 0x7FDA0591 = .ok (.subfze 30 26 true true) ∧
    decode 0x7E2C0194 = .ok (.addze 17 12 false false) ∧
    decode 0x7F5401D0 = .ok (.subfme 26 20 false false) ∧
    decode 0x7D892DD3 = .ok (.mulld 12 9 5 true true) ∧
    decode 0x7C7E01D4 = .ok (.addme 3 30 false false) ∧
    decode 0x7E9165D7 = .ok (.mullw 20 17 12 true true) ∧
    decode 0x7FDAA615 = .ok (.add 30 26 20 true true) ∧
    decode 0x7D251B92 = .ok (.divdu 9 5 3 false false) := by
  decide

/-- Words laid out from the boxes of spec/43_fx_arith.md and the split fields of 30_encoding.md R141. -/
theorem test_decode_arith_3 :
    decode 0x7FDAA797 = .ok (.divwu 30 26 20 true true) ∧
    decode 0x7F548BD2 = .ok (.divd 26 20 17 false false) ∧
    decode 0x7D892FD7 = .ok (.divw 12 9 5 true true) := by
  decide

/-- Words laid out from the boxes of spec/44_fx_compare_trap_logical.md and the split fields of 30_encoding.md R141. -/
theorem test_decode_compare_trap_logical_1 :
    decode 0x087E8001 = .ok (.tdi 3 30 0x8001) ∧
    decode 0x0E917FFE = .ok (.twi 20 17 0x7ffe) ∧
    decode 0x29098001 = .ok (.cmpli 2 false 9 0x8001) ∧
    decode 0x2F3E7FFE = .ok (.cmpi 6 true 30 0x7ffe) ∧
    decode 0x63DA1234 = .ok (.ori 30 26 0x1234) ∧
    decode 0x662C8001 = .ok (.oris 17 12 0x8001) ∧
    decode 0x68A37FFE = .ok (.xori 5 3 0x7ffe) ∧
    decode 0x6F54FFF0 = .ok (.xoris 26 20 0xfff0) ∧
    decode 0x71891234 = .ok (.andiRec 12 9 0x1234) ∧
    decode 0x747E8001 = .ok (.andisRec 3 30 0x8001) ∧
    decode 0x7EA51800 = .ok (.cmp 5 true 5 3) ∧
    decode 0x7C7ED008 = .ok (.tw 3 30 26) := by
  decide

/-- Words laid out from the boxes of spec/44_fx_compare_trap_logical.md and the split fields of 30_encoding.md R141. -/
theorem test_decode_compare_trap_logical_2 :
    decode 0x7D250034 = .ok (.cntlzw 9 5 false) ∧
    decode 0x7E2C4838 = .ok (.and 17 12 9 false) ∧
    decode 0x7F3ED040 = .ok (.cmpl 6 true 30 26) ∧
    decode 0x7E910075 = .ok (.cntlzd 20 17 true) ∧
    decode 0x7D251878 = .ok (.andc 9 5 3 false) ∧
    decode 0x7FDAA088 = .ok (.td 30 26 20) ∧
    decode 0x7E9100F4 = .ok (.popcntb 20 17) ∧
    decode 0x7D2518F8 = .ok (.nor 9 5 3 false) ∧
    decode 0x7CA3F239 = .ok (.eqv 5 3 30 true) ∧
    decode 0x7D892A79 = .ok (.xor 12 9 5 true) ∧
    decode 0x7F548B38 = .ok (.orc 26 20 17 false) ∧
    decode 0x7E916379 = .ok (.or 20 17 12 true) := by
  decide

/-- Words laid out from the boxes of spec/44_fx_compare_trap_logical.md and the split fields of 30_encoding.md R141. -/
theorem test_decode_compare_trap_logical_3 :
    decode 0x7CA3F3B9 = .ok (.nand 5 3 30 true) ∧
    decode 0x7F540734 = .ok (.extsh 26 20 false) ∧
    decode 0x7D890775 = .ok (.extsb 12 9 true) ∧
    decode 0x7E9107B5 = .ok (.extsw 20 17 true) := by
  decide

/-- Words laid out from the boxes of spec/45_fx_rotate_shift.md and the split fields of 30_encoding.md R141. -/
theorem test_decode_rotate_shift_1 :
    decode 0x507ED522 = .ok (.rlwimi 3 30 26 20 17 false) ∧
    decode 0x5691624B = .ok (.rlwinm 20 17 12 9 5 true) ∧
    decode 0x5D251FB4 = .ok (.rlwnm 9 5 3 30 26 false) ∧
    decode 0x7A919063 = .ok (.rldicl 20 17 50 33 true) ∧
    decode 0x79250F86 = .ok (.rldicr 9 5 33 30 false) ∧
    decode 0x7BDAF4A9 = .ok (.rldic 30 26 30 50 true) ∧
    decode 0x7A2C906E = .ok (.rldimi 17 12 50 33 false) ∧
    decode 0x78A3F791 = .ok (.rldcl 5 3 30 30 true) ∧
    decode 0x7B548CB2 = .ok (.rldcr 26 20 17 50 false) ∧
    decode 0x7E916031 = .ok (.slw 20 17 12 true) ∧
    decode 0x7FDAA037 = .ok (.sld 30 26 20 true) ∧
    decode 0x7D89F675 = .ok (.sradi 12 9 30 true) := by
  decide

/-- Words laid out from the boxes of spec/45_fx_rotate_shift.md and the split fields of 30_encoding.md R141. -/
theorem test_decode_rotate_shift_2 :
    decode 0x7E2C4C30 = .ok (.srw 17 12 9 false) ∧
    decode 0x7CA3F437 = .ok (.srd 5 3 30 true) ∧
    decode 0x7D251E30 = .ok (.sraw 9 5 3 false) ∧
    decode 0x7FDAA635 = .ok (.srad 30 26 20 true) ∧
    decode 0x7E2C4E70 = .ok (.srawi 17 12 9 false) := by
  decide

/-- Words laid out from the boxes of spec/46_fx_sysreg.md and the split fields of 30_encoding.md R141. -/
theorem test_decode_sysreg_1 :
    decode 0x7CA00026 = .ok (.mfcr 5) ∧
    decode 0x7CA81120 = .ok (.mtcrf 5 0x81) ∧
    decode 0x7C6802A6 = .ok (.mfspr 3 8) ∧
    decode 0x7E2903A6 = .ok (.mtspr 17 9) := by
  decide

/-- Words laid out from the boxes of spec/48_fp_instructions.md and the split fields of 30_encoding.md R141. -/
theorem test_decode_fp_instructions_1 :
    decode 0xECA3F025 = .ok (.fdivs 5 3 30 true) ∧
    decode 0xEF548828 = .ok (.fsubs 26 20 17 false) ∧
    decode 0xED89282B = .ok (.fadds 12 9 5 true) ∧
    decode 0xED2500F2 = .ok (.fmuls 9 5 3 false) ∧
    decode 0xEE2C4978 = .ok (.fmsubs 17 12 9 5 false) ∧
    decode 0xECA3F6BB = .ok (.fmadds 5 3 30 26 true) ∧
    decode 0xEF548B3C = .ok (.fnmsubs 26 20 17 12 false) ∧
    decode 0xED8928FF = .ok (.fnmadds 12 9 5 3 true) ∧
    decode 0xFF051800 = .ok (.fcmpu 6 5 3) ∧
    decode 0xFFC0D019 = .ok (.frsp 30 26 true) ∧
    decode 0xFE20601C = .ok (.fctiw 17 12 false) ∧
    decode 0xFCA0181F = .ok (.fctiwz 5 3 true) := by
  decide

/-- Words laid out from the boxes of spec/48_fp_instructions.md and the split fields of 30_encoding.md R141. -/
theorem test_decode_fp_instructions_2 :
    decode 0xFF548824 = .ok (.fdiv 26 20 17 false) ∧
    decode 0xFD892829 = .ok (.fsub 12 9 5 true) ∧
    decode 0xFC7ED02A = .ok (.fadd 3 30 26 false) ∧
    decode 0xFE2C0272 = .ok (.fmul 17 12 9 false) ∧
    decode 0xFF548B38 = .ok (.fmsub 26 20 17 12 false) ∧
    decode 0xFD8928FB = .ok (.fmadd 12 9 5 3 true) ∧
    decode 0xFC7ED53C = .ok (.fnmsub 3 30 26 20 false) ∧
    decode 0xFE91627F = .ok (.fnmadd 20 17 12 9 true) ∧
    decode 0xFE851840 = .ok (.fcmpo 5 5 3) ∧
    decode 0xFFC0004D = .ok (.mtfsb1 30 true) ∧
    decode 0xFE880080 = .ok (.mcrfs 5 2) ∧
    decode 0xFF40008C = .ok (.mtfsb0 26 false) := by
  decide

/-- Words laid out from the boxes of spec/48_fp_instructions.md and the split fields of 30_encoding.md R141. -/
theorem test_decode_fp_instructions_3 :
    decode 0xFE80910C = .ok (.mtfsfi 5 9 false) ∧
    decode 0xFFC0048F = .ok (.mffs 30 true) ∧
    decode 0xFCFC658E = .ok (.mtfsf 0x7e 12 false) ∧
    decode 0xFCA01E5D = .ok (.fctid 5 3 true) ∧
    decode 0xFF40A65E = .ok (.fctidz 26 20 false) ∧
    decode 0xFD804E9D = .ok (.fcfid 12 9 true) := by
  decide

/-- Words laid out from the boxes of spec/48_fp_load_store_move.md and the split fields of 30_encoding.md R141. -/
theorem test_decode_fp_load_store_move_1 :
    decode 0x7FDAA42E = .ok (.lfsx 30 26 20) ∧
    decode 0x7F548C6E = .ok (.lfsux 26 20 17) ∧
    decode 0x7C7ED4AE = .ok (.lfdx 3 30 26) ∧
    decode 0x7E9164EE = .ok (.lfdux 20 17 12) ∧
    decode 0x7E2C4D2E = .ok (.stfsx 17 12 9) ∧
    decode 0x7CA3F56E = .ok (.stfsux 5 3 30) ∧
    decode 0x7D892DAE = .ok (.stfdx 12 9 5) ∧
    decode 0x7C7ED5EE = .ok (.stfdux 3 30 26) ∧
    decode 0x7C7ED7AE = .ok (.stfiwx 3 30 26) ∧
    decode 0xC125FFF0 = .ok (.lfs 9 5 0xfff0) ∧
    decode 0xC7DA1234 = .ok (.lfsu 30 26 0x1234) ∧
    decode 0xCA2C8001 = .ok (.lfd 17 12 0x8001) := by
  decide

/-- Words laid out from the boxes of spec/48_fp_load_store_move.md and the split fields of 30_encoding.md R141. -/
theorem test_decode_fp_load_store_move_2 :
    decode 0xCCA37FFE = .ok (.lfdu 5 3 0x7ffe) ∧
    decode 0xD354FFF0 = .ok (.stfs 26 20 0xfff0) ∧
    decode 0xD5891234 = .ok (.stfsu 12 9 0x1234) ∧
    decode 0xD87E8001 = .ok (.stfd 3 30 0x8001) ∧
    decode 0xDE917FFE = .ok (.stfdu 20 17 0x7ffe) ∧
    decode 0xFE206050 = .ok (.fneg 17 12 false) ∧
    decode 0xFD804891 = .ok (.fmr 12 9 true) ∧
    decode 0xFE808911 = .ok (.fnabs 20 17 true) ∧
    decode 0xFD202A10 = .ok (.fabs 9 5 false) := by
  decide

/-- Words laid out from the boxes of spec/49_optional.md and the split fields of 30_encoding.md R141. -/
theorem test_decode_optional_1 :
    decode 0x7F57E026 = .ok (.mfocrf 26 0x7e) ∧
    decode 0x7F57E120 = .ok (.mtocrf 26 0x7e) ∧
    decode 0x7F000400 = .ok (.mcrxr 6) ∧
    decode 0xEC60F02C = .ok (.fsqrts 3 30 false) ∧
    decode 0xEE808831 = .ok (.fres 20 17 true) ∧
    decode 0xEFC0D035 = .ok (.frsqrtes 30 26 true) ∧
    decode 0xFE80882D = .ok (.fsqrt 20 17 true) ∧
    decode 0xFD251FAE = .ok (.fsel 9 5 3 30 false) ∧
    decode 0xFFC0D031 = .ok (.fre 30 26 true) ∧
    decode 0xFCA01835 = .ok (.frsqrte 5 3 true) := by
  decide

/-! ## Steps: rows of the spec's test vectors -/

/-- Rows of spec/95_test_vectors_fx.md: b, bc, bclr, bcctr, crand, cror, crxor, crnor. -/
theorem test_step_branch_1 : (
    gives true 0x4BFFFFFD [] [.lr 0x1004, .pc 0xffc] &&
    gives true 0x42000010 [.ctr 0x100000001] [.ctr 0x100000000, .pc 0x1010] &&
    gives true 0x4E800021 [.lr 0x3000] [.lr 0x1004, .pc 0x3000] &&
    gives true 0x4D810421 [.cr 0x40000000, .ctr 0x4000, .lr 0x1] [.lr 0x1004, .pc 0x4000] &&
    gives true 0x4C011202 [.cr 0x60000000] [.cr 0xe0000000, .pc 0x1004] &&
    gives true 0x4FE00B82 [.cr 0x40000000] [.cr 0x40000001, .pc 0x1004] &&
    gives true 0x4C631982 [.cr 0xffffffff] [.cr 0xefffffff, .pc 0x1004] &&
    gives true 0x4ED29042 [.cr 0x0] [.cr 0x200, .pc 0x1004]) = true := by
  decide +kernel

/-- Rows of spec/95_test_vectors_fx.md: creqv, crandc, crorc, mcrf. -/
theorem test_step_branch_2 : (
    gives true 0x4F39CA42 [.cr 0x0] [.cr 0x40, .pc 0x1004] &&
    gives true 0x4C011102 [.cr 0x40000000] [.cr 0xc0000000, .pc 0x1004] &&
    gives true 0x4C011342 [.cr 0x20000000] [.cr 0x20000000, .pc 0x1004] &&
    gives true 0x4F800000 [.cr 0x9000000f] [.cr 0x90000009, .pc 0x1004]) = true := by
  decide +kernel

/-- Rows of spec/95_test_vectors_fx.md: lbz, lbzu, lbzx, lbzux, lhz, lha, lhau, lhzx. -/
theorem test_step_load_store_1 : (
    gives true 0x8864FFFF [.g 4 0x2001, .m 0x2000 [0x80, 0x91, 0xa2, 0xb3, 0xc4, 0xd5, 0xe6, 0xf7]] [.g 3 0x80,
      .pc 0x1004] &&
    gives true 0x8C640001 [.g 4 0x2000, .m 0x2000 [0x80, 0x91, 0xa2, 0xb3, 0xc4, 0xd5, 0xe6, 0xf7]] [.g 3 0x91,
      .g 4 0x2001, .pc 0x1004] &&
    gives true 0x7C6428AE [.g 4 0x2000, .g 5 0x7, .m 0x2000 [0x80, 0x91, 0xa2, 0xb3, 0xc4, 0xd5, 0xe6, 0xf7]]
      [.g 3 0xf7, .pc 0x1004] &&
    gives true 0x7C6428EE [.g 4 0x2000, .g 5 0x2, .m 0x2000 [0x80, 0x91, 0xa2, 0xb3, 0xc4, 0xd5, 0xe6, 0xf7]]
      [.g 3 0xa2, .g 4 0x2002, .pc 0x1004] &&
    gives true 0xA0640001 [.g 4 0x2000, .m 0x2000 [0x80, 0x91, 0xa2, 0xb3, 0xc4, 0xd5, 0xe6, 0xf7]] [.g 3 0x91a2,
      .pc 0x1004] &&
    gives true 0xA8640000 [.g 4 0x2000, .m 0x2000 [0x80, 0x91, 0xa2, 0xb3, 0xc4, 0xd5, 0xe6, 0xf7]]
      [.g 3 0xffffffffffff8091, .pc 0x1004] &&
    gives true 0xAC640002 [.g 4 0x2000, .m 0x2000 [0x80, 0x91, 0xa2, 0xb3, 0xc4, 0xd5, 0xe6, 0xf7]]
      [.g 3 0xffffffffffffa2b3, .g 4 0x2002, .pc 0x1004] &&
    gives true 0x7C602A2E [.g 0 0x9999, .g 5 0x2002, .m 0x2000 [0x80, 0x91, 0xa2, 0xb3, 0xc4, 0xd5, 0xe6, 0xf7]]
      [.g 3 0xa2b3, .pc 0x1004]) = true := by
  decide +kernel

/-- Rows of spec/95_test_vectors_fx.md: lhaux, lhzu, lhzux, lhax, lwz, lwzu, lwzx, lwzux. -/
theorem test_step_load_store_2 : (
    gives true 0x7C642AEE [.g 4 0x2008, .g 5 0xfffffffffffffffc, .m 0x2000 [0x80, 0x91, 0xa2, 0xb3, 0xc4, 0xd5, 0xe6,
      0xf7]] [.g 3 0xffffffffffffc4d5, .g 4 0x2004, .pc 0x1004] &&
    gives true 0xA4640004 [.g 4 0x2000, .m 0x2000 [0x80, 0x91, 0xa2, 0xb3, 0xc4, 0xd5, 0xe6, 0xf7]] [.g 3 0xc4d5,
      .g 4 0x2004, .pc 0x1004] &&
    gives true 0x7C642A6E [.g 4 0x2000, .g 5 0x6, .m 0x2000 [0x80, 0x91, 0xa2, 0xb3, 0xc4, 0xd5, 0xe6, 0xf7]]
      [.g 3 0xe6f7, .g 4 0x2006, .pc 0x1004] &&
    gives true 0x7C642AAE [.g 4 0x2000, .g 5 0x4, .m 0x2000 [0x80, 0x91, 0xa2, 0xb3, 0xc4, 0xd5, 0xe6, 0xf7]]
      [.g 3 0xffffffffffffc4d5, .pc 0x1004] &&
    gives false 0x80640000 [.g 4 0xffffffff00002000, .m 0x2000 [0x80, 0x91, 0xa2, 0xb3, 0xc4, 0xd5, 0xe6, 0xf7]]
      [.g 3 0x8091a2b3, .pc 0x1004] &&
    gives false 0x84640008 [.g 4 0xfffffffffffffff8, .m 0x0 [0x80, 0x91, 0xa2, 0xb3, 0xc4, 0xd5, 0xe6, 0xf7]]
      [.g 3 0x8091a2b3, .g 4 0x0, .pc 0x1004] &&
    gives true 0x7C64282E [.g 4 0x2000, .g 5 0x0, .m 0x2000 [0x80, 0x91, 0xa2, 0xb3, 0xc4, 0xd5, 0xe6, 0xf7]]
      [.g 3 0x8091a2b3, .pc 0x1004] &&
    gives true 0x7C85306E [.g 5 0x2004, .g 6 0xfffffffffffffffc, .m 0x2000 [0x80, 0x91, 0xa2, 0xb3, 0xc4, 0xd5, 0xe6,
      0xf7]] [.g 4 0x8091a2b3, .g 5 0x2000, .pc 0x1004]) = true := by
  decide +kernel

/-- Rows of spec/95_test_vectors_fx.md: lwa, lwax, lwaux, ld, ldu, ldx, ldux, stb. -/
theorem test_step_load_store_3 : (
    gives true 0xE8640002 [.g 4 0x2000, .m 0x2000 [0x80, 0x91, 0xa2, 0xb3, 0xc4, 0xd5, 0xe6, 0xf7]]
      [.g 3 0xffffffff8091a2b3, .pc 0x1004] &&
    gives true 0x7C642AAA [.g 4 0x2000, .g 5 0x4, .m 0x2000 [0x80, 0x91, 0xa2, 0xb3, 0xc4, 0xd5, 0xe6, 0xf7]]
      [.g 3 0xffffffffc4d5e6f7, .pc 0x1004] &&
    gives true 0x7C642AEA [.g 4 0x2000, .g 5 0x4, .m 0x2000 [0x80, 0x91, 0xa2, 0xb3, 0xc4, 0xd5, 0xe6, 0xf7]]
      [.g 3 0xffffffffc4d5e6f7, .g 4 0x2004, .pc 0x1004] &&
    gives true 0xE864FFF8 [.g 4 0x2008, .m 0x2000 [0x80, 0x91, 0xa2, 0xb3, 0xc4, 0xd5, 0xe6, 0xf7]]
      [.g 3 0x8091a2b3c4d5e6f7, .pc 0x1004] &&
    gives true 0xE8640009 [.g 4 0x1ff8, .m 0x2000 [0x80, 0x91, 0xa2, 0xb3, 0xc4, 0xd5, 0xe6, 0xf7]]
      [.g 3 0x8091a2b3c4d5e6f7, .g 4 0x2000, .pc 0x1004] &&
    gives true 0x7C64282A [.g 4 0x1000, .g 5 0x1000, .m 0x2000 [0x80, 0x91, 0xa2, 0xb3, 0xc4, 0xd5, 0xe6, 0xf7]]
      [.g 3 0x8091a2b3c4d5e6f7, .pc 0x1004] &&
    gives true 0x7C64286A [.g 4 0x1000, .g 5 0x1000, .m 0x2000 [0x80, 0x91, 0xa2, 0xb3, 0xc4, 0xd5, 0xe6, 0xf7]]
      [.g 3 0x8091a2b3c4d5e6f7, .g 4 0x2000, .pc 0x1004] &&
    gives true 0x98640000 [.g 3 0x1122334455667788, .g 4 0x2000, .m 0x2000 [0x0, 0x0, 0x0, 0x0, 0x0, 0x0, 0x0, 0x0]]
      [.pc 0x1004, .m 0x2000 [0x88]]) = true := by
  decide +kernel

/-- Rows of spec/95_test_vectors_fx.md: stbu, stbx, stbux, sth, sthu, sthx, sthux, stw. -/
theorem test_step_load_store_4 : (
    gives true 0x9C640001 [.g 3 0xab, .g 4 0x2000, .m 0x2000 [0x0, 0x0, 0x0, 0x0, 0x0, 0x0, 0x0, 0x0]] [.g 4 0x2001,
      .pc 0x1004, .m 0x2001 [0xab]] &&
    gives true 0x7C6429AE [.g 3 0xcd, .g 4 0x2000, .g 5 0x5, .m 0x2000 [0x0, 0x0, 0x0, 0x0, 0x0, 0x0, 0x0, 0x0]]
      [.pc 0x1004, .m 0x2005 [0xcd]] &&
    gives true 0x7C6429EE [.g 3 0xcd, .g 4 0x2000, .g 5 0x5, .m 0x2000 [0x0, 0x0, 0x0, 0x0, 0x0, 0x0, 0x0, 0x0]]
      [.g 4 0x2005, .pc 0x1004, .m 0x2005 [0xcd]] &&
    gives true 0xB0640002 [.g 3 0x1122334455667788, .g 4 0x2000, .m 0x2000 [0x0, 0x0, 0x0, 0x0, 0x0, 0x0, 0x0, 0x0]]
      [.pc 0x1004, .m 0x2002 [0x77, 0x88]] &&
    gives true 0xB4640002 [.g 3 0x7788, .g 4 0x2000, .m 0x2000 [0x0, 0x0, 0x0, 0x0, 0x0, 0x0, 0x0, 0x0]]
      [.g 4 0x2002, .pc 0x1004, .m 0x2002 [0x77, 0x88]] &&
    gives true 0x7C642B2E [.g 3 0x7788, .g 4 0x2000, .g 5 0x1, .m 0x2000 [0x0, 0x0, 0x0, 0x0, 0x0, 0x0, 0x0, 0x0]]
      [.pc 0x1004, .m 0x2001 [0x77, 0x88]] &&
    gives true 0x7C642B6E [.g 3 0x7788, .g 4 0x2000, .g 5 0x6, .m 0x2000 [0x0, 0x0, 0x0, 0x0, 0x0, 0x0, 0x0, 0x0]]
      [.g 4 0x2006, .pc 0x1004, .m 0x2006 [0x77, 0x88]] &&
    gives true 0x90640004 [.g 3 0x1122334455667788, .g 4 0x2000, .m 0x2000 [0x0, 0x0, 0x0, 0x0, 0x0, 0x0, 0x0, 0x0]]
      [.pc 0x1004, .m 0x2004 [0x55, 0x66, 0x77, 0x88]]) = true := by
  decide +kernel

/-- Rows of spec/95_test_vectors_fx.md: stwu, stwx, stwux, std, stdu, stdx, stdux. -/
theorem test_step_load_store_5 : (
    gives true 0x9421FFFC [.g 1 0x2008, .m 0x2000 [0x0, 0x0, 0x0, 0x0, 0x0, 0x0, 0x0, 0x0]] [.g 1 0x2004, .pc 0x1004,
      .m 0x2004 [0x0, 0x0, 0x20, 0x8]] &&
    gives true 0x7C64292E [.g 3 0x55667788, .g 4 0x2000, .g 5 0x0, .m 0x2000 [0x0, 0x0, 0x0, 0x0, 0x0, 0x0, 0x0,
      0x0]] [.pc 0x1004, .m 0x2000 [0x55, 0x66, 0x77, 0x88]] &&
    gives true 0x7C64296E [.g 3 0x55667788, .g 4 0x2000, .g 5 0x4, .m 0x2000 [0x0, 0x0, 0x0, 0x0, 0x0, 0x0, 0x0,
      0x0]] [.g 4 0x2004, .pc 0x1004, .m 0x2004 [0x55, 0x66, 0x77, 0x88]] &&
    gives true 0xF8640000 [.g 3 0x1122334455667788, .g 4 0x2000, .m 0x2000 [0x0, 0x0, 0x0, 0x0, 0x0, 0x0, 0x0, 0x0]]
      [.pc 0x1004, .m 0x2000 [0x11, 0x22, 0x33, 0x44, 0x55, 0x66, 0x77, 0x88]] &&
    gives true 0xF864FFF9 [.g 3 0x1122334455667788, .g 4 0x2008, .m 0x2000 [0x0, 0x0, 0x0, 0x0, 0x0, 0x0, 0x0, 0x0]]
      [.g 4 0x2000, .pc 0x1004, .m 0x2000 [0x11, 0x22, 0x33, 0x44, 0x55, 0x66, 0x77, 0x88]] &&
    gives true 0x7C64292A [.g 3 0x1122334455667788, .g 4 0x2000, .g 5 0x0, .m 0x2000 [0x0, 0x0, 0x0, 0x0, 0x0, 0x0,
      0x0, 0x0]] [.pc 0x1004, .m 0x2000 [0x11, 0x22, 0x33, 0x44, 0x55, 0x66, 0x77, 0x88]] &&
    gives true 0x7C64296A [.g 3 0x1122334455667788, .g 4 0x1000, .g 5 0x1000, .m 0x2000 [0x0, 0x0, 0x0, 0x0, 0x0,
      0x0, 0x0, 0x0]] [.g 4 0x2000, .pc 0x1004, .m 0x2000 [0x11, 0x22, 0x33, 0x44, 0x55, 0x66, 0x77,
      0x88]]) = true := by
  decide +kernel

/-- Rows of spec/95_test_vectors_fx.md: lhbrx, lwbrx, sthbrx, stwbrx, lmw, stmw, lswi, lswx. -/
theorem test_step_multiple_string_1 : (
    gives true 0x7C642E2C [.g 4 0x2000, .g 5 0x0, .m 0x2000 [0x80, 0x91, 0xa2, 0xb3, 0xc4, 0xd5, 0xe6, 0xf7]]
      [.g 3 0x9180, .pc 0x1004] &&
    gives true 0x7C642C2C [.g 4 0x2000, .g 5 0x4, .m 0x2000 [0x80, 0x91, 0xa2, 0xb3, 0xc4, 0xd5, 0xe6, 0xf7]]
      [.g 3 0xf7e6d5c4, .pc 0x1004] &&
    gives true 0x7C642F2C [.g 3 0x1122334455667788, .g 4 0x2000, .g 5 0x0, .m 0x2000 [0x0, 0x0, 0x0, 0x0, 0x0, 0x0,
      0x0, 0x0]] [.pc 0x1004, .m 0x2000 [0x88, 0x77]] &&
    gives true 0x7C642D2C [.g 3 0x1122334455667788, .g 4 0x2000, .g 5 0x4, .m 0x2000 [0x0, 0x0, 0x0, 0x0, 0x0, 0x0,
      0x0, 0x0]] [.pc 0x1004, .m 0x2004 [0x88, 0x77, 0x66, 0x55]] &&
    gives true 0xBBA40000 [.g 4 0x2000, .g 29 0xffffffffffffffff, .g 30 0xffffffffffffffff, .g 31 0xffffffffffffffff,
      .m 0x2000 [0x81, 0x2, 0x3, 0x4, 0x5, 0x6, 0x7, 0x8, 0x9, 0xa, 0xb, 0xc]] [.g 29 0x81020304, .g 30 0x5060708,
      .g 31 0x90a0b0c, .pc 0x1004] &&
    gives true 0xBFFF0000 [.g 31 0x2000, .m 0x2000 [0x0, 0x0, 0x0, 0x0, 0x0, 0x0, 0x0, 0x0]] [.pc 0x1004,
      .m 0x2000 [0x0, 0x0, 0x20, 0x0]] &&
    gives true 0x7CA43CAA [.g 4 0x2000, .g 5 0xffffffffffffffff, .g 6 0xffffffffffffffff, .m 0x2000 [0x80, 0x91,
      0xa2, 0xb3, 0xc4, 0xd5, 0xe6, 0xf7]] [.g 5 0x8091a2b3, .g 6 0xc4d5e600, .pc 0x1004] &&
    gives true 0x7CA0242A [.g 4 0x2000, .xer 0x3, .g 5 0xffffffffffffffff, .m 0x2000 [0x80, 0x91, 0xa2, 0xb3, 0xc4,
      0xd5, 0xe6, 0xf7]] [.g 5 0x8091a200, .pc 0x1004]) = true := by
  decide +kernel

/-- Rows of spec/95_test_vectors_fx.md: stswi, stswx. -/
theorem test_step_multiple_string_2 : (
    gives true 0x7CA42DAA [.g 4 0x2000, .g 5 0xffffffff11223344, .g 6 0x55667788, .m 0x2000 [0x0, 0x0, 0x0, 0x0, 0x0,
      0x0, 0x0, 0x0]] [.pc 0x1004, .m 0x2000 [0x11, 0x22, 0x33, 0x44, 0x55]] &&
    gives true 0x7CA0252A [.g 4 0x2001, .xer 0x2, .g 5 0xaabbccdd, .m 0x2000 [0x0, 0x0, 0x0, 0x0, 0x0, 0x0, 0x0,
      0x0]] [.pc 0x1004, .m 0x2001 [0xaa, 0xbb]]) = true := by
  decide +kernel

/-- Rows of spec/95_test_vectors_fx.md: addi, addis, add, subf, addic, addic., subfic, addc. -/
theorem test_step_arith_1 : (
    gives true 0x3860FFFF [.g 0 0x63] [.g 3 0xffffffffffffffff, .pc 0x1004] &&
    gives true 0x3C608000 [.g 0 0x5] [.g 3 0xffffffff80000000, .pc 0x1004] &&
    gives true 0x7C642E15 [.g 4 0x1, .g 5 0x2, .xer 0xc0000000] [.g 3 0x3, .cr 0x50000000, .xer 0x80000000,
      .pc 0x1004] &&
    gives true 0x7C642C50 [.g 4 0x1, .g 5 0x8000000000000000] [.g 3 0x7fffffffffffffff, .xer 0xc0000000, .pc 0x1004] &&
    gives true 0x30640001 [.g 4 0xffffffff, .xer 0x20000000] [.g 3 0x100000000, .xer 0x0, .pc 0x1004] &&
    gives true 0x3464FFFF [.g 4 0x1] [.g 3 0x0, .cr 0x20000000, .xer 0x20000000, .pc 0x1004] &&
    gives true 0x20640000 [.g 4 0x0] [.g 3 0x0, .xer 0x20000000, .pc 0x1004] &&
    gives true 0x7C642C15 [.g 4 0x8000000000000000, .g 5 0x8000000000000000] [.g 3 0x0, .cr 0x30000000,
      .xer 0xe0000000, .pc 0x1004]) = true := by
  decide +kernel

/-- Rows of spec/95_test_vectors_fx.md: subfc, adde, subfe, addme, subfme, addze, subfze, neg. -/
theorem test_step_arith_2 : (
    gives true 0x7C642810 [.g 4 0x3, .g 5 0xa] [.g 3 0x7, .xer 0x20000000, .pc 0x1004] &&
    gives true 0x7C642914 [.g 4 0x1, .g 5 0x2, .xer 0x20000000] [.g 3 0x4, .xer 0x0, .pc 0x1004] &&
    gives true 0x7C642910 [.g 4 0x3, .g 5 0xa, .xer 0x0] [.g 3 0x6, .xer 0x20000000, .pc 0x1004] &&
    gives true 0x7C6401D4 [.g 4 0x0, .xer 0x20000000] [.g 3 0x0, .xer 0x20000000, .pc 0x1004] &&
    gives true 0x7C6401D0 [.g 4 0x0, .xer 0x0] [.g 3 0xfffffffffffffffe, .xer 0x20000000, .pc 0x1004] &&
    gives true 0x7C640594 [.g 4 0x7fffffffffffffff, .xer 0x20000000] [.g 3 0x8000000000000000, .xer 0xc0000000,
      .pc 0x1004] &&
    gives true 0x7C640190 [.g 4 0x0, .xer 0x20000000] [.g 3 0x0, .pc 0x1004] &&
    gives true 0x7C6404D0 [.g 4 0x80000000] [.g 3 0xffffffff80000000, .xer 0x0, .pc 0x1004]) = true := by
  decide +kernel

/-- Rows of spec/95_test_vectors_fx.md: mulli, mulld, mullw, mulhd, mulhdu, divd, divdu. -/
theorem test_step_arith_3 : (
    gives true 0x1C647FFF [.g 4 0x4000000000000001] [.g 3 0xc000000000007fff, .pc 0x1004] &&
    gives false 0x7C642DD2 [.g 4 0x100000000, .g 5 0x100000000] [.g 3 0x0, .xer 0xc0000000, .pc 0x1004] &&
    gives true 0x7C642DD6 [.g 4 0x10000, .g 5 0x10000] [.g 3 0x100000000, .xer 0xc0000000, .pc 0x1004] &&
    gives true 0x7C642893 [.g 4 0x8000000000000000, .g 5 0x8000000000000000] [.g 3 0x4000000000000000,
      .cr 0x40000000, .pc 0x1004] &&
    gives true 0x7C642812 [.g 4 0xffffffffffffffff, .g 5 0x2] [.g 3 0x1, .pc 0x1004] &&
    gives true 0x7C642FD2 [.g 4 0x64, .g 5 0x7, .xer 0xc0000000] [.g 3 0xe, .xer 0x80000000, .pc 0x1004] &&
    gives true 0x7C642B92 [.g 4 0xffffffffffffffff, .g 5 0x2] [.g 3 0x7fffffffffffffff, .pc 0x1004]) = true := by
  decide +kernel

/-- Rows of spec/95_test_vectors_fx.md: cmpi, cmp, cmpli, cmpl, andi., andis., ori, oris. -/
theorem test_step_compare_trap_logical_1 : (
    gives true 0x2C23FFFF [.g 3 0xffffffffffffffff] [.cr 0x20000000, .pc 0x1004] &&
    gives true 0x7D032000 [.g 3 0x8000000000000000, .g 4 0x1] [.cr 0x800000, .pc 0x1004] &&
    gives true 0x2823FFFF [.g 3 0xffffffffffffffff] [.cr 0x40000000, .pc 0x1004] &&
    gives true 0x7D232040 [.g 3 0x8000000000000000, .g 4 0x1] [.cr 0x400000, .pc 0x1004] &&
    gives true 0x70830000 [.g 4 0xffffffffffffffff, .xer 0x80000000] [.g 3 0x0, .cr 0x30000000, .pc 0x1004] &&
    gives true 0x74838000 [.g 4 0xffffffffffffffff] [.g 3 0x80000000, .cr 0x40000000, .pc 0x1004] &&
    gives true 0x60000000 [.g 0 0x1234] [.g 0 0x1234, .pc 0x1004] &&
    gives true 0x64838000 [.g 4 0x1] [.g 3 0x80000001, .pc 0x1004]) = true := by
  decide +kernel

/-- Rows of spec/95_test_vectors_fx.md: xori, xoris, and, or, xor, nand, nor, eqv. -/
theorem test_step_compare_trap_logical_2 : (
    gives true 0x6883FFFF [.g 4 0xffff] [.g 3 0x0, .pc 0x1004] &&
    gives true 0x6C83FFFF [.g 4 0xffffffffffffffff] [.g 3 0xffffffff0000ffff, .pc 0x1004] &&
    gives true 0x7C832839 [.g 4 0x8000000000000000, .g 5 0xffffffffffffffff] [.g 3 0x8000000000000000,
      .cr 0x80000000, .pc 0x1004] &&
    gives true 0x7C832378 [.g 4 0x123] [.g 3 0x123, .pc 0x1004] &&
    gives true 0x7C832278 [.g 4 0x123, .g 3 0x9] [.g 3 0x0, .pc 0x1004] &&
    gives true 0x7C832BB8 [.g 4 0xffffffffffffffff, .g 5 0xf] [.g 3 0xfffffffffffffff0, .pc 0x1004] &&
    gives true 0x7C8320F8 [.g 4 0xffffffff] [.g 3 0xffffffff00000000, .pc 0x1004] &&
    gives true 0x7C832A38 [.g 4 0xff00, .g 5 0xff0] [.g 3 0xffffffffffff0f0f, .pc 0x1004]) = true := by
  decide +kernel

/-- Rows of spec/95_test_vectors_fx.md: andc, orc, extsb, extsh, extsw, cntlzd, cntlzw, popcntb. -/
theorem test_step_compare_trap_logical_3 : (
    gives true 0x7C832878 [.g 4 0xffff, .g 5 0xff0] [.g 3 0xf00f, .pc 0x1004] &&
    gives true 0x7C832B38 [.g 4 0x0, .g 5 0xfffffffffffffff0] [.g 3 0xf, .pc 0x1004] &&
    gives true 0x7C830775 [.g 4 0x7f] [.g 3 0x7f, .cr 0x40000000, .pc 0x1004] &&
    gives true 0x7C830734 [.g 4 0x18000] [.g 3 0xffffffffffff8000, .pc 0x1004] &&
    gives true 0x7C8307B4 [.g 4 0x80000000] [.g 3 0xffffffff80000000, .pc 0x1004] &&
    gives true 0x7C830075 [.g 4 0x8000000000000000] [.g 3 0x0, .cr 0x20000000, .pc 0x1004] &&
    gives true 0x7C830034 [.g 4 0xffffffff00000000] [.g 3 0x20, .pc 0x1004] &&
    gives true 0x7C8300F4 [.g 4 0xff0103070f1f3f7f] [.g 3 0x801020304050607, .pc 0x1004]) = true := by
  decide +kernel

/-- Rows of spec/95_test_vectors_fx.md: rldicl, rldicr, rldic, rldimi, rldcl, rldcr, rlwinm, rlwnm. -/
theorem test_step_rotate_shift_1 : (
    gives true 0x78834001 [.g 4 0x8000000000000000] [.g 3 0x80, .cr 0x40000000, .pc 0x1004] &&
    gives true 0x788345E4 [.g 4 0x123456789abcdef] [.g 3 0x23456789abcdef00, .pc 0x1004] &&
    gives true 0x78832708 [.g 4 0x123456789abcdef] [.g 3 0x89abcdef0, .pc 0x1004] &&
    gives true 0x7883F80E [.g 4 0x1, .g 3 0x7ffffffffffffff0] [.g 3 0xfffffffffffffff0, .pc 0x1004] &&
    gives true 0x78832810 [.g 4 0x123456789abcdef, .g 5 0xffffffffffffff44] [.g 3 0x123456789abcdef0, .pc 0x1004] &&
    gives true 0x788329D2 [.g 4 0x123456789abcdef, .g 5 0x8] [.g 3 0x2300000000000000, .pc 0x1004] &&
    gives true 0x54830001 [.g 4 0x80000000] [.g 3 0x80000000, .cr 0x40000000, .pc 0x1004] &&
    gives true 0x5C83283E [.g 4 0x89abcdef, .g 5 0x24] [.g 3 0x9abcdef8, .pc 0x1004]) = true := by
  decide +kernel

/-- Rows of spec/95_test_vectors_fx.md: rlwimi, sld, srd, slw, srw, srad, sradi, sraw. -/
theorem test_step_rotate_shift_2 : (
    gives true 0x5083F800 [.g 4 0x1, .g 3 0xaaaaaaaa00000000] [.g 3 0xaaaaaaaa80000000, .pc 0x1004] &&
    gives true 0x7C832836 [.g 4 0x123456789abcdef, .g 5 0x40] [.g 3 0x0, .pc 0x1004] &&
    gives true 0x7C832C36 [.g 4 0x123456789abcdef, .g 5 0x4] [.g 3 0x123456789abcde, .pc 0x1004] &&
    gives true 0x7C832830 [.g 4 0x123456789abcdef, .g 5 0x4] [.g 3 0x9abcdef0, .pc 0x1004] &&
    gives true 0x7C832C31 [.g 4 0x123456789abcdef, .g 5 0x3f] [.g 3 0x0, .cr 0x20000000, .pc 0x1004] &&
    gives true 0x7C832E34 [.g 4 0xfffffffffffffff8, .g 5 0x1, .xer 0x20000000] [.g 3 0xfffffffffffffffc, .xer 0x0,
      .pc 0x1004] &&
    gives true 0x7C830677 [.g 4 0xffffffff00000000] [.g 3 0xffffffffffffffff, .cr 0x80000000, .pc 0x1004] &&
    gives true 0x7C832E30 [.g 4 0xfffffff9, .g 5 0x1] [.g 3 0xfffffffffffffffc, .xer 0x20000000,
      .pc 0x1004]) = true := by
  decide +kernel

/-- Rows of spec/95_test_vectors_fx.md: srawi. -/
theorem test_step_rotate_shift_3 : (
    gives true 0x7C830670 [.g 4 0x80000000, .xer 0x20000000] [.g 3 0xffffffff80000000, .xer 0x0,
      .pc 0x1004]) = true := by
  decide +kernel

/-- Rows of spec/95_test_vectors_fx.md: mtspr, mfspr, mtcrf, mfcr. -/
theorem test_step_sysreg_1 : (
    gives true 0x7C6103A6 [.g 3 0xffffffffffffffff] [.xer 0xffffffffffffffff, .pc 0x1004] &&
    gives true 0x7C6902A6 [.ctr 0xffffffffffffffff] [.g 3 0xffffffffffffffff, .pc 0x1004] &&
    gives true 0x7C681120 [.g 3 0x12345678, .cr 0xffffffff] [.cr 0x1ffffff8, .pc 0x1004] &&
    gives true 0x7C600026 [.cr 0x12345678, .g 3 0xffffffffffffffff] [.g 3 0x12345678, .pc 0x1004]) = true := by
  decide +kernel

/-- Rows of spec/95_test_vectors_fp.md: fadd, fsub, fmul, fdiv, fadds, fsubs, fmuls, fdivs. -/
theorem test_step_fp_instructions_1 : (
    gives true 0xFC22182B [.f 2 0x3ff0000000000000, .f 3 0x3ca0000000000000, .cr 0x0] [.f 1 0x3ff0000000000000,
      .cr 0x8000000, .fpscr 0x82024000, .pc 0x1004] &&
    gives true 0xFC221828 [.f 2 0x7ff0000000000000, .f 3 0x7ff0000000000000] [.f 1 0x7ff8000000000000,
      .fpscr 0xa0811000, .pc 0x1004] &&
    gives true 0xFC2200F2 [.f 2 0x8000000000000000, .f 3 0x4008000000000000] [.f 1 0x8000000000000000,
      .fpscr 0x12000, .pc 0x1004] &&
    gives true 0xFC221824 [.f 2 0x3ff0000000000000, .f 3 0x4008000000000000] [.f 1 0x3fd5555555555555,
      .fpscr 0x82024000, .pc 0x1004] &&
    gives true 0xEC22182A [.f 2 0x3ff0000000000000, .f 3 0x3e70000000000000] [.f 1 0x3ff0000000000000,
      .fpscr 0x82024000, .pc 0x1004] &&
    gives true 0xEC221828 [.f 2 0x4008000000000000, .f 3 0x3ff8000000000000] [.f 1 0x3ff8000000000000, .fpscr 0x4000,
      .pc 0x1004] &&
    gives true 0xEC2200F2 [.f 2 0x47e0000000000000, .f 3 0x4000000000000000, .fpscr 0x40] [.f 1 0x3bf0000000000000,
      .fpscr 0xd0004040, .pc 0x1004] &&
    gives true 0xEC221824 [.f 2 0x3ff0000000000000, .f 3 0x4008000000000000] [.f 1 0x3fd5555560000000,
      .fpscr 0x82064000, .pc 0x1004]) = true := by
  decide +kernel

/-- Rows of spec/95_test_vectors_fp.md: fmadd, fmsub, fnmadd, fnmsub, fmadds, fmsubs, fnmadds, fnmsubs. -/
theorem test_step_fp_instructions_2 : (
    gives true 0xFC2220FA [.f 2 0x3ff0000000000001, .f 3 0x3ff0000000000001, .f 4 0xbff0000000000002]
      [.f 1 0x3970000000000000, .fpscr 0x4000, .pc 0x1004] &&
    gives true 0xFC2220F8 [.f 2 0x4000000000000000, .f 3 0x4008000000000000, .f 4 0x4018000000000000] [.f 1 0x0,
      .fpscr 0x2000, .pc 0x1004] &&
    gives true 0xFC2220FE [.f 2 0x3ff0000000000000, .f 3 0x4000000000000000, .f 4 0x4008000000000000]
      [.f 1 0xc014000000000000, .fpscr 0x8000, .pc 0x1004] &&
    gives true 0xFC2220FC [.f 2 0x4000000000000000, .f 3 0x4008000000000000, .f 4 0x4018000000000000]
      [.f 1 0x8000000000000000, .fpscr 0x12000, .pc 0x1004] &&
    gives true 0xEC2220FA [.f 2 0x3ff8000000000000, .f 3 0x4000000000000000, .f 4 0x3fd0000000000000]
      [.f 1 0x400a000000000000, .fpscr 0x4000, .pc 0x1004] &&
    gives true 0xEC2220F8 [.f 2 0x4000000000000000, .f 3 0x4008000000000000, .f 4 0x3ff0000000000000]
      [.f 1 0x4014000000000000, .fpscr 0x4000, .pc 0x1004] &&
    gives true 0xEC2220FE [.f 2 0x4000000000000000, .f 3 0x4008000000000000, .f 4 0x3ff0000000000000]
      [.f 1 0xc01c000000000000, .fpscr 0x8000, .pc 0x1004] &&
    gives true 0xEC2220FC [.f 2 0x3ff0000020000000, .f 3 0x3ff0000020000000, .f 4 0x0, .fpscr 0x2]
      [.f 1 0xbff0000060000000, .fpscr 0x82068002, .pc 0x1004]) = true := by
  decide +kernel

/-- Rows of spec/95_test_vectors_fp.md: frsp, fctid, fcfid, fcmpu, fcmpo, mtfsfi, mtfsf, mtfsb0. -/
theorem test_step_fp_instructions_3 : (
    gives true 0xFC201019 [.f 2 0xfff0000000000000, .cr 0xf000000] [.f 1 0xfff0000000000000, .cr 0x0, .fpscr 0x9000,
      .pc 0x1004] &&
    gives true 0xFC20165C [.f 1 0x1234, .f 2 0x7ff0000000000000, .fpscr 0x4080] [.f 1 0x1234, .fpscr 0xe0004180,
      .pc 0x1004] &&
    gives true 0xFC20169D [.f 2 0x7ff8000000000000, .cr 0xf000000] [.f 1 0x43dffe0000000000, .cr 0x0, .fpscr 0x4000,
      .pc 0x1004] &&
    gives true 0xFC011000 [.f 1 0x3ff0000000000000, .f 2 0x4000000000000000, .fpscr 0x71000, .cr 0x0]
      [.cr 0x80000000, .fpscr 0x78000, .pc 0x1004] &&
    gives true 0xFC011040 [.f 1 0x7ff8000000000000, .f 2 0x3ff0000000000000, .cr 0x0] [.cr 0x10000000,
      .fpscr 0xa0081000, .pc 0x1004] &&
    gives true 0xFD80810D [.fpscr 0x0, .cr 0x0] [.cr 0x2000000, .fpscr 0x20080000, .pc 0x1004] &&
    gives true 0xFC100D8F [.f 1 0xf000, .fpscr 0x80000000, .cr 0x0] [.cr 0x8000000, .fpscr 0x8000f000, .pc 0x1004] &&
    gives true 0xFFE0008D [.fpscr 0x80000003, .cr 0x0] [.cr 0x8000000, .fpscr 0x80000002, .pc 0x1004]) = true := by
  decide +kernel

/-- Rows of spec/95_test_vectors_fp.md: mtfsb1. -/
theorem test_step_fp_instructions_4 : (
    gives true 0xFF00004D [.fpscr 0xa1000000, .cr 0x0] [.cr 0xe000000, .fpscr 0xe1000080, .pc 0x1004]) = true := by
  decide +kernel

/-- Rows of spec/95_test_vectors_fp.md: lfs, lfsu, lfsx, lfsux, lfd, lfdu, lfdx, lfdux. -/
theorem test_step_fp_load_store_move_1 : (
    gives true 0xC0240000 [.g 4 0x2000, .m 0x2000 [0x7f, 0x80, 0x0, 0x1]] [.f 1 0x7ff0000020000000, .fpscr 0x0,
      .pc 0x1004] &&
    gives true 0xC4240004 [.g 4 0x2000, .m 0x2000 [0x0, 0x0, 0x0, 0x0, 0x3f, 0xc0, 0x0, 0x0]] [.g 4 0x2004,
      .f 1 0x3ff8000000000000, .pc 0x1004] &&
    gives true 0x7C242C2E [.g 4 0x2000, .g 5 0x4, .m 0x2000 [0x0, 0x0, 0x0, 0x0, 0x40, 0x49, 0xf, 0xdb]]
      [.f 1 0x400921fb60000000, .pc 0x1004] &&
    gives true 0x7C242C6E [.g 4 0x2000, .g 5 0x4, .m 0x2000 [0x0, 0x0, 0x0, 0x0, 0x40, 0x49, 0xf, 0xdb]]
      [.g 4 0x2004, .f 1 0x400921fb60000000, .pc 0x1004] &&
    gives true 0xC8240000 [.g 4 0x2000, .m 0x2000 [0x7f, 0xf0, 0x0, 0x0, 0x0, 0x0, 0x0, 0x1]]
      [.f 1 0x7ff0000000000001, .pc 0x1004] &&
    gives true 0xCC240008 [.g 4 0x1ff8, .m 0x2000 [0x3f, 0xf0, 0x0, 0x0, 0x0, 0x0, 0x0, 0x0]] [.g 4 0x2000,
      .f 1 0x3ff0000000000000, .pc 0x1004] &&
    gives true 0x7C202CAE [.g 5 0x2000, .m 0x2000 [0x40, 0x9, 0x21, 0xfb, 0x54, 0x44, 0x2d, 0x18]]
      [.f 1 0x400921fb54442d18, .pc 0x1004] &&
    gives true 0x7C242CEE [.g 4 0x1000, .g 5 0x1000, .m 0x2000 [0x40, 0x9, 0x21, 0xfb, 0x54, 0x44, 0x2d, 0x18]]
      [.g 4 0x2000, .f 1 0x400921fb54442d18, .pc 0x1004]) = true := by
  decide +kernel

/-- Rows of spec/95_test_vectors_fp.md: stfs, stfsu, stfsx, stfsux, stfd, stfdu, stfdx, stfdux. -/
theorem test_step_fp_load_store_move_2 : (
    gives true 0xD0240000 [.f 1 0x3ff0000000000000, .g 4 0x2000, .m 0x2000 [0x0, 0x0, 0x0, 0x0, 0x0, 0x0, 0x0, 0x0]]
      [.pc 0x1004, .m 0x2000 [0x3f, 0x80, 0x0, 0x0]] &&
    gives true 0xD4240004 [.f 1 0x4000000000000000, .g 4 0x2000, .m 0x2000 [0x0, 0x0, 0x0, 0x0, 0x0, 0x0, 0x0, 0x0]]
      [.g 4 0x2004, .pc 0x1004, .m 0x2004 [0x40, 0x0, 0x0, 0x0]] &&
    gives true 0x7C242D2E [.f 1 0xc008000000000000, .g 4 0x2000, .g 5 0x0, .m 0x2000 [0x0, 0x0, 0x0, 0x0, 0x0, 0x0,
      0x0, 0x0]] [.pc 0x1004, .m 0x2000 [0xc0, 0x40, 0x0, 0x0]] &&
    gives true 0x7C242D6E [.f 1 0xc008000000000000, .g 4 0x2000, .g 5 0x4, .m 0x2000 [0x0, 0x0, 0x0, 0x0, 0x0, 0x0,
      0x0, 0x0]] [.g 4 0x2004, .pc 0x1004, .m 0x2004 [0xc0, 0x40, 0x0, 0x0]] &&
    gives true 0xD8240000 [.f 1 0x400921fb54442d18, .g 4 0x2000, .m 0x2000 [0x0, 0x0, 0x0, 0x0, 0x0, 0x0, 0x0, 0x0]]
      [.pc 0x1004, .m 0x2000 [0x40, 0x9, 0x21, 0xfb, 0x54, 0x44, 0x2d, 0x18]] &&
    gives true 0xDC24FFF8 [.f 1 0x7ff0000000000001, .g 4 0x2008, .m 0x2000 [0x0, 0x0, 0x0, 0x0, 0x0, 0x0, 0x0, 0x0]]
      [.g 4 0x2000, .pc 0x1004, .m 0x2000 [0x7f, 0xf0, 0x0, 0x0, 0x0, 0x0, 0x0, 0x1]] &&
    gives true 0x7C242DAE [.f 1 0x3ff0000000000000, .g 4 0x2000, .g 5 0x0, .m 0x2000 [0x0, 0x0, 0x0, 0x0, 0x0, 0x0,
      0x0, 0x0]] [.pc 0x1004, .m 0x2000 [0x3f, 0xf0, 0x0, 0x0, 0x0, 0x0, 0x0, 0x0]] &&
    gives true 0x7C242DEE [.f 1 0x3ff0000000000000, .g 4 0x1000, .g 5 0x1000, .m 0x2000 [0x0, 0x0, 0x0, 0x0, 0x0,
      0x0, 0x0, 0x0]] [.g 4 0x2000, .pc 0x1004, .m 0x2000 [0x3f, 0xf0, 0x0, 0x0, 0x0, 0x0, 0x0, 0x0]]) = true := by
  decide +kernel

/-- Rows of spec/95_test_vectors_fp.md: stfiwx, fmr, fneg, fabs, fnabs. -/
theorem test_step_fp_load_store_move_3 : (
    gives true 0x7C202FAE [.f 1 0xfff8000012345678, .g 5 0x2004, .m 0x2000 [0x0, 0x0, 0x0, 0x0, 0x0, 0x0, 0x0, 0x0]]
      [.pc 0x1004, .m 0x2004 [0x12, 0x34, 0x56, 0x78]] &&
    gives true 0xFC201091 [.f 2 0x3ff0000000000000, .fpscr 0x90000000, .cr 0x0] [.f 1 0x3ff0000000000000,
      .cr 0x9000000, .pc 0x1004] &&
    gives true 0xFC201050 [.f 2 0x7ff8000000000000] [.f 1 0xfff8000000000000, .pc 0x1004] &&
    gives true 0xFC201210 [.f 2 0xfff0000000000000] [.f 1 0x7ff0000000000000, .pc 0x1004] &&
    gives true 0xFC201110 [.f 2 0xbff0000000000000] [.f 1 0xbff0000000000000, .pc 0x1004]) = true := by
  decide +kernel

/-- Rows of spec/95_test_vectors_fx.md: mtocrf, fsel, fsqrt, fsqrts. -/
theorem test_step_optional_1 : (
    gives true 0x7C708120 [.g 3 0x12345678, .cr 0x0] [.cr 0x5000, .pc 0x1004] &&
    gives true 0xFC2220EF [.f 2 0x3ff0000000000000, .f 3 0x1111, .f 4 0x2222, .fpscr 0x90000000, .cr 0x0]
      [.f 1 0x1111, .cr 0x9000000, .pc 0x1004] &&
    gives true 0xFC20102C [.f 2 0x4000000000000000] [.f 1 0x3ff6a09e667f3bcd, .fpscr 0x82064000, .pc 0x1004] &&
    gives true 0xEC20102C [.f 2 0x4000000000000000] [.f 1 0x3ff6a09e60000000, .fpscr 0x82024000,
      .pc 0x1004]) = true := by
  decide +kernel

/-- Rows of spec/95_test_vectors_fx.md: the traps, sc, invalid forms, an illegal word. -/
theorem test_raises : (
    raises true 0x0A030000 [.g 3 0xFFFFFFFFFFFFFFFF] (.trap 0x1000 0x0A030000) &&
    raises true 0x0D030000 [.g 3 0xFFFFFFFF00000001] (.trap 0x1000 0x0D030000) &&
    raises true 0x7F032088 [.g 3 7, .g 4 8] (.trap 0x1000 0x7F032088) &&
    raises true 0x7C832008 [.g 3 0x100000007, .g 4 0x200000007] (.trap 0x1000 0x7C832008) &&
    raises true 0x44000002 [] (.systemCall 0x1000 0x44000002 0) &&
    raises true 0x00000000 [] (.illegalInstruction 0x1000 0) &&
    raises true 0xC4200004 [] (.illegalInstruction 0x1000 0xC4200004)) = true := by
  decide +kernel

/-- Rows of spec/95_test_vectors_fx.md: traps that are not taken. -/
theorem test_no_trap : (
    gives true 0x0A030000 [.g 3 0] [.pc 0x1004] &&
    gives true 0x0823FFFF [.g 3 0xFFFFFFFFFFFFFFFF] [.pc 0x1004] &&
    gives true 0x0D030000 [.g 3 0xFFFFFFFF] [.pc 0x1004] &&
    gives true 0x7F032088 [.g 3 7, .g 4 7] [.pc 0x1004]) = true := by
  decide +kernel

/-! ## Well-formedness: one ill-formed term for each check -/

/-- spec/30_encoding.md R166, 46_fx_sysreg.md R483: the check refuses each. -/
theorem test_ill_formed :
    WellFormed (.sc 0 false) = false ∧
    WellFormed (.bcctr 0b10000 0 0 false) = false ∧
    WellFormed (.lwzu 3 0 8) = false ∧
    WellFormed (.lwzu 3 3 8) = false ∧
    WellFormed (.stwu 3 0 8) = false ∧
    WellFormed (.lfsu 3 0 8) = false ∧
    WellFormed (.stfdu 3 0 8) = false ∧
    WellFormed (.lmw 29 29 0) = false ∧
    WellFormed (.lmw 0 0 0) = false ∧
    WellFormed (.lswi 5 6 8) = false ∧
    WellFormed (.lswi 31 0 8) = false ∧
    WellFormed (.lswx 5 5 6) = false ∧
    WellFormed (.lswx 5 6 5) = false ∧
    WellFormed (.mtspr 3 22) = false ∧
    WellFormed (.mfspr 3 0) = false := by
  decide

/-- Their well-formed neighbours. -/
theorem test_well_formed :
    WellFormed (.sc 0 true) = true ∧
    WellFormed (.bcctr 0b10100 0 0 false) = true ∧
    WellFormed (.lwzu 3 4 8) = true ∧
    WellFormed (.stwu 3 3 8) = true ∧
    WellFormed (.lmw 29 28 0) = true ∧
    WellFormed (.lswi 5 7 8) = true ∧
    WellFormed (.lswx 5 6 7) = true ∧
    WellFormed (.mtspr 3 9) = true := by
  decide

/-! ## Witnesses: concrete states and operands that meet the hypotheses of the statements -/

/-- Reset with GPR 3 = 5, GPR 4 = 0x2000, GPR 5 = -1, GPR 6 = the most negative number, GPR 7 = its word's. -/
def wg : State :=
  [Item.g 3 5, .g 4 0x2000, .g 5 0xFFFFFFFFFFFFFFFF, .g 6 0x8000000000000000, .g 7 0x80000000].foldl put State.reset

/-- Reset with FPR 0 = 0, 1 = 1, 2 = 2, 3 = 3, 4 and 5 the infinities, 6 a Quiet and 7 a Signaling NaN, 8 = -1, 9 not
representable in single format, 10 = 2^-149, 11 = -0, 12 = 6, 13 = 4, 14 = 2^-1074, 15 = the integer 2^53, 16 the
largest single, 17 = 2.5, 18 = 2^63, 19 = -2^63. -/
def wf : State :=
  [Item.f 0 0, .f 1 0x3FF0000000000000, .f 2 0x4000000000000000, .f 3 0x4008000000000000, .f 4 0x7FF0000000000000,
    .f 5 0xFFF0000000000000, .f 6 0x7FF8000000000000, .f 7 0x7FF0000020000000, .f 8 0xBFF0000000000000,
    .f 9 0x3FF0000000000001, .f 10 0x36A0000000000000, .f 11 0x8000000000000000, .f 12 0x4018000000000000,
    .f 13 0x4010000000000000, .f 14 1, .f 15 0x0020000000000000, .f 16 0x47EFFFFFE0000000,
    .f 17 0x4004000000000000, .f 18 0x43E0000000000000, .f 19 0xC3E0000000000000].foldl put State.reset

/-- `wf` with exceptions not ignored and the enable bits of `mask`. -/
def wfEnabled (mask : Word) : State := { wf.setFpscr mask with env := { Env.reset with fe0 := true } }

/-- The outcome is a next state. -/
def nexts : Res → Bool
  | .next _ => true
  | _ => false

theorem exists_next {r : Res} (h : nexts r = true) : ∃ t, r = .next t := by
  cases r with
  | next t => exact ⟨t, rfl⟩
  | fault => cases h
  | refused => cases h

/-- StepRunsDecodedInstruction. -/
theorem witness_step_runs :
    let s := start true 0x38640001 []
    s.event = none ∧ s.wellFormed = true ∧ s.available .fetch s.pc 4 = true ∧ s.fetchModified = false ∧
      decode s.fetchWord = .ok (.addi 3 4 1) := by
  decide +kernel

/-- StepRaisesBeforeExecution: a fetch from a denied range, and an illegal word. -/
theorem witness_step_raises :
    let d := { State.reset with env := { Env.reset with denied := [⟨0, 4, false, false, true⟩] } }
    let s := start true 0x04000000 []
    (d.event = none ∧ d.wellFormed = true ∧ d.available .fetch d.pc 4 = false) ∧
    s.event = none ∧ s.wellFormed = true ∧ s.available .fetch s.pc 4 = true ∧ s.fetchModified = false ∧
      decode s.fetchWord = .error .unusedPrimary := by
  decide +kernel

/-- StepKeepsInvariant: the state satisfies the invariant and steps. -/
theorem witness_invariant : (start true 0x38640001 []).Inv ∧ ∃ t, step (start true 0x38640001 []) = .next t :=
  ⟨⟨by decide +kernel, by decide +kernel, by decide +kernel, ⟨by decide +kernel, by decide +kernel⟩, by decide +kernel,
    by decide +kernel, by decide +kernel⟩, exists_next (by decide +kernel)⟩

/-- EventsChangeNothingElse: sc. -/
theorem witness_event : State.reset.event = none ∧
    exec (.sc 0 true) State.reset = .next { State.reset with event := some (.systemCall 0 0 0) } := ⟨rfl, rfl⟩

/-- NonBranchesAdvance, LinkAndCountWriters: addi. -/
theorem witness_advance : State.reset.event = none ∧
    exec (.addi 3 0 1) State.reset = .next ((State.reset.setGpr 3 1).setPc 4) := ⟨rfl, rfl⟩

/-- SummaryOverflowIsSticky: addi with SO = 1. -/
theorem witness_sticky :
    (State.reset.setXer 0x80000000).so = true ∧ ∃ t, exec (.addi 3 0 1) (State.reset.setXer 0x80000000) = .next t :=
  ⟨by decide, exists_next rfl⟩

/-- BranchResults: both clauses of bcctr. -/
theorem witness_bcctr : bitAt (0b00100 : BitVec 5) 2 = true ∧ bitAt (0b11011 : BitVec 5) 2 = false := by decide

/-- DivideResults: divisors that are not 0, the boundary -1 with a dividend one off, and the undefined cases. -/
theorem witness_divide :
    wg.gprOf 3 ≠ 0 ∧ ¬((wg.gprOf 3).toInt = -2 ^ 63 ∧ (wg.gprOf 5).toInt = -1) ∧ wg.gprOf 0 = 0 ∧
    ((wg.gprOf 6).toInt = -2 ^ 63 ∧ (wg.gprOf 5).toInt = -1) ∧
    lowWord (wg.gprOf 5) ≠ 0 ∧ ¬((lowWord (wg.gprOf 6)).toInt = -2 ^ 31 ∧ (lowWord (wg.gprOf 5)).toInt = -1) ∧
    lowWord (wg.gprOf 6) = 0 ∧ ((lowWord (wg.gprOf 7)).toInt = -2 ^ 31 ∧ (lowWord (wg.gprOf 5)).toInt = -1) := by
  decide +kernel

/-- TrapResults: `TO = 4` traps on equal operands and on no others. -/
theorem witness_trap : bitAt (4 : BitVec 5) 2 = true ∧ wg.gprOf 3 = 5 ∧ wg.gprOf 4 ≠ 5 := by decide +kernel

/-- LoadResults, StoreResults, ByteReversalResults, FloatingLoadResults,
      FloatingStoreResults and their forms with update:
an aligned and an unaligned operand, and one that wraps at the top of storage. -/
theorem witness_accessible :
    wg.mem.wf = true ∧ (4 : RegNum) ≠ 0 ∧ (4 : RegNum) ≠ 3 ∧
    (wg.alignFault 0x2000 1 = false ∧ wg.available .load 0x2000 1 = true ∧ wg.available .store 0x2000 1 = true) ∧
    (wg.alignFault 0x2003 4 = false ∧ wg.available .load 0x2003 4 = true ∧ wg.available .store 0x2003 4 = true) ∧
    (wg.alignFault 0xFFFFFFFFFFFFFFFC 8 = false ∧ wg.available .load 0xFFFFFFFFFFFFFFFC 8 = true ∧
      wg.available .store 0xFFFFFFFFFFFFFFFC 8 = true) := by
  decide +kernel

/-- AccessFaults: an unaligned operand in Little-Endian mode,
      a denied byte at each end of an operand; the registers of the
forms with update. -/
theorem witness_faults :
    let le := { State.reset with env := { Env.reset with le := true } }
    let d := { State.reset with env := { Env.reset with denied := [⟨0x2003, 1, true, true, false⟩] } }
    le.alignFault (le.trunc 0x2001) 2 = true ∧
    (d.alignFault (d.trunc 0x2000) 4 = false ∧ d.available .load 0x2000 4 = false) ∧
    (d.alignFault (d.trunc 0x2003) 4 = false ∧ d.available .store 0x2003 4 = false) ∧
    (4 : RegNum) ≠ 0 ∧ (4 : RegNum) ≠ 3 := by
  decide +kernel

/-- MultipleAccessFaults: Little-Endian mode; an unaligned operand in Big-Endian mode; the last word of two denied,
      the last
byte of five denied; RA one below RT, and RA and RB one past the range of a byte count of 5. -/
theorem witness_multiple_faults :
    let le := { wg with env := { Env.reset with le := true } }
    let d := { wg.setXer 5 with env := { Env.reset with denied := [⟨0x2004, 1, true, true, false⟩] } }
    le.env.le = true ∧ d.env.le = false ∧ d.alignFaultMultiple (d.trunc 0x2002) = true ∧
    d.alignFaultMultiple (d.trunc 0x2000) = false ∧ (29 : RegNum).toNat < (30 : RegNum).toNat ∧
    (1 < 32 - (30 : RegNum).toNat ∧ d.available .load 0x2000 4 = true ∧ d.available .load 0x2004 4 = false ∧
      d.available .store 0x2000 4 = true ∧ d.available .store 0x2004 4 = false) ∧
    ((fld d.xer 57 7).toNat = 5 ∧ ¬ 4 * ((0 : RegNum) - 30).toNat < 5 ∧ 4 * ((31 : RegNum) - 30).toNat < 5 ∧
      (∀ j, j < 4 → d.available .load (0x2000 + BitVec.ofNat 64 j) 1 = true ∧
        d.available .store (0x2000 + BitVec.ofNat 64 j) 1 = true) ∧
      d.available .load 0x2004 1 = false ∧ d.available .store 0x2004 1 = false) := by
  decide +kernel

/-- MultipleResults: RT = 31 with RA = 30 and with RA = 31, all of the operand available. -/
theorem witness_multiple :
    wg.env.le = false ∧ wg.mem.wf = true ∧ (30 : RegNum).toNat < (31 : RegNum).toNat ∧
    (31 : RegNum).toNat ≤ (31 : RegNum).toNat ∧ wg.alignFaultMultiple (wg.trunc 0x2000) = false ∧
    ∀ k, k < 32 - (31 : RegNum).toNat → wg.available .load (0x2000 + BitVec.ofNat 64 (4 * k)) 4 = true ∧
      wg.available .store (0x2000 + BitVec.ofNat 64 (4 * k)) 4 = true := by
  decide +kernel

/-- LoadStringResults, StoreStringResults: a byte count of 8 into registers 31 and 0,
      RA = 1 just out of the range and RA = 0
the last in it; a byte count of 0. -/
theorem witness_string :
    let s := wg.setXer 8
    s.env.le = false ∧ s.mem.wf = true ∧ (fld s.xer 57 7).toNat = 8 ∧ (fld wg.xer 57 7).toNat = 0 ∧
    (31 : RegNum) ≠ 1 ∧ ¬ (4 * ((1 : RegNum) - 31).toNat < 8) ∧ 4 * ((0 : RegNum) - 31).toNat < 8 ∧
    ∀ j, j < 8 → s.available .load (0x2000 + BitVec.ofNat 64 j) 1 = true ∧
      s.available .store (0x2000 + BitVec.ofNat 64 j) 1 = true := by
  decide +kernel

/-- SpecialRegisterResults: the neighbours of the defined SPR numbers and the ends of the range. -/
theorem witness_spr : ∀ n ∈ [(0 : BitVec 10), 2, 7, 10, 1023], n ≠ 1 ∧ n ≠ 8 ∧ n ≠ 9 := by decide

/-- ConditionRegisterMoves, FloatingMoveResults, and, with the facilities absent, AbsentInstructionsAreIllegal. -/
theorem witness_facilities :
    let on := { State.reset with env := { Env.reset with hasMcrxr := true } }
    let off := { State.reset with env := { Env.reset with
      hasMtocrfMfocrf := false, hasFpGeneral := false, hasFpGraphics := false } }
    on.env.hasMtocrfMfocrf = true ∧ on.env.hasMcrxr = true ∧ on.env.hasFpGraphics = true ∧
    off.env.hasMtocrfMfocrf = false ∧ off.env.hasMcrxr = false ∧ off.env.hasFpGeneral = false ∧
    off.env.hasFpGraphics = false := by
  decide

/-- SingleDoubleInverse, FloatingStoreResults: representable patterns at the ends of the range,
      one that `SINGLE` does not
define, and both values of the ghost bit. -/
theorem witness_single :
    repSingle (wf.fprOf 10) = true ∧ toSingle (wf.fprOf 10) = some 1 ∧ repSingle (wf.fprOf 16) = true ∧
    toSingle (wf.fprOf 16) = some 0x7F7FFFFF ∧ toSingle (wf.fprOf 14) = none ∧ wf.singleOf 1 = false ∧
    (wf.setFpr 1 0 true).singleOf 1 = true := by
  decide +kernel

/-- MaskGenerator: both orders at the ends of the range. -/
theorem witness_mask : bitAt (maskBits 0 63) 63 = true ∧ bitAt (maskBits 63 0) 1 = false := by decide +kernel

/-- ComputationalInstructionsComplete and the other statements on IEEE arithmetic: the state's premises. -/
theorem witness_ieee : wf.Ieee ∧ FpscrSummaries wf.fpscr ∧ wf.env.hasFpGeneral = true ∧ wf.env.hasFpGraphics = true :=
  ⟨rfl, ⟨rfl, rfl⟩, rfl, rfl⟩

/-- What the exact statements ask of an operand. -/
theorem witness_finite : ∀ r ∈ [(1 : RegNum), 2, 3, 8, 12, 13],
      isNaN (wf.fprOf r) = false ∧ isInf (wf.fprOf r) = false ∧
    isZero (wf.fprOf r) = false ∧ repSingle (wf.fprOf r) = true := by
  decide +kernel

theorem witness_normal : ∀ r ∈ [(1 : RegNum), 2, 3, 8, 12, 16],
    (FpFormat.sp.minExp ≤ fpExp (wf.fprOf r) ∧ fpExp (wf.fprOf r) ≤ fpExp FpFormat.sp.maxFin ∧
      repSingle (wf.fprOf r) = true) ∧
    FpFormat.dp.minExp ≤ fpExp (wf.fprOf r) ∧ fpExp (wf.fprOf r) ≤ fpExp FpFormat.dp.maxFin := by
  decide +kernel

/-- ExactSumsAndProducts, ExactMultiplyAdds, ExactQuotientsAndRoots: 1 + 2 = 3, 3 - 1 = 2, 2 * 3 = 6, 6 - 3 = 3,
2 * 2 + 2 = 6, 2 * 2 - 1 = 3, 6 / 2 = 3, and 4 is the square of 2. -/
theorem witness_exact :
    let v (r : RegNum) := fpVal (wf.fprOf r)
    let neg (y : Machine.Dyadic) : Machine.Dyadic := ⟨-y.num, y.exp⟩
    let same (x y : Machine.Dyadic) : Bool := x.le y && y.le x
    same (v 3) ((v 1).add (v 2)) = true ∧ same (v 2) ((v 3).add (neg (v 1))) = true ∧
    same (v 12) ((v 2).mul (v 3)) = true ∧ same (v 12) (((v 2).mul (v 2)).add (v 2)) = true ∧
    same (v 3) (((v 2).mul (v 2)).add (neg (v 1))) = true ∧ same (v 12) ((v 3).mul (v 2)) = true ∧
    same (v 13) ((v 2).mul (v 2)) = true ∧ fpSign (wf.fprOf 2) = false := by
  decide +kernel

/-- What some of these operands are as rational numbers. -/
theorem wf_fpRat : fpRat (wf.fprOf 1) = 1 ∧ fpRat (wf.fprOf 2) = 2 ∧ fpRat (wf.fprOf 3) = 3 ∧
    fpRat (wf.fprOf 9) = 1 + 2 ^ (-52 : Int) ∧ fpRat (wf.fprOf 10) = 2 ^ (-149 : Int) ∧
    fpRat (wf.fprOf 13) = 4 ∧ fpRat (wf.fprOf 16) = 2 ^ 128 - 2 ^ 104 ∧ fpRat (wf.fprOf 17) = 5 / 2 ∧
    fpRat (wf.fprOf 18) = 2 ^ 63 ∧ fpRat (wf.fprOf 19) = -2 ^ 63 := by
  have h (r : RegNum) (n e : Int) (h : (fpVal (wf.fprOf r)).num = n ∧ (fpVal (wf.fprOf r)).exp = e) :
      fpRat (wf.fprOf r) = n * (2 : ℚ) ^ e := by rw [fpRat, h.1, h.2]
  rw [h 1 4503599627370496 (-52) (by decide +kernel),
    h 2 4503599627370496 (-51) (by decide +kernel),
    h 3 6755399441055744 (-51) (by decide +kernel),
    h 9 4503599627370497 (-52) (by decide +kernel),
    h 10 4503599627370496 (-201) (by decide +kernel),
    h 13 4503599627370496 (-50) (by decide +kernel),
    h 16 9007198717870080 75 (by decide +kernel),
    h 17 5629499534213120 (-51) (by decide +kernel),
    h 18 4503599627370496 11 (by decide +kernel),
    h 19 (-4503599627370496) 11 (by decide +kernel)]
  norm_num

/-- RoundedSumsAndProducts: finite operands whose sum is inexact, whose product overflows the single format,
      and whose product
is tiny. -/
theorem witness_rounded :
    (∀ r ∈ [(2 : RegNum), 9, 10, 16], isNaN (wf.fprOf r) = false ∧ isInf (wf.fprOf r) = false) ∧
    [wf.fprOf 16, wf.fprOf 10, wf.fprOf 2].all repSingle = true ∧
    (fpRat (wf.fprOf 2) : ℝ) + fpRat (wf.fprOf 9) ≠ 0 ∧
    (2 : ℝ) ^ (128 : Int) ≤ fpRat (wf.fprOf 16) * fpRat (wf.fprOf 16) ∧
    (fpRat (wf.fprOf 10) : ℝ) * fpRat (wf.fprOf 10) < (2 : ℝ) ^ (-126 : Int) ∧
    (fpRat (wf.fprOf 10) : ℝ) * fpRat (wf.fprOf 10) ≠ 0 := by
  obtain ⟨_, h2, _, h9, h10, _, h16, _⟩ := wf_fpRat
  rw [h2, h9, h10, h16]
  exact ⟨by decide +kernel, by decide +kernel, by norm_num, by norm_num, by norm_num, by norm_num⟩

/-- RoundedQuotientsAndRoots: nonzero numbers, the divisor positive. -/
theorem witness_rounded_quotient :
    isNumber (wf.fprOf 1) = true ∧ isNumber (wf.fprOf 3) = true ∧ fpSign (wf.fprOf 3) = false ∧
    [wf.fprOf 1, wf.fprOf 3].all repSingle = true := by
  decide +kernel

/-- InfinitiesAndZeros: a product of finite operands that an operand cancels. -/
theorem witness_cancel : fpRat (wf.fprOf 2) * fpRat (wf.fprOf 2) + fpRat (fpNegated (wf.fprOf 13)) = 0 := by
  have h : (fpVal (fpNegated (wf.fprOf 13))).num = -4503599627370496 ∧ (fpVal (fpNegated (wf.fprOf 13))).exp = -50 := by
    decide +kernel
  rw [wf_fpRat.2.1, fpRat, h.1, h.2]
  norm_num

/-- InfinitiesAndZeros, ZeroDivideResults, InvalidOperationResults: the operands of each clause, the invalid ones being
infinity - infinity, infinity / infinity, 0 / 0, infinity * 0, the root of a negative number, a Signaling NaN. -/
theorem witness_special :
    isInf (wf.fprOf 4) = true ∧ isInf (wf.fprOf 5) = true ∧ wf.fprOf 5 = fpNegated (wf.fprOf 4) ∧
    isZero (wf.fprOf 0) = true ∧ isZero (wf.fprOf 11) = true ∧ isNumber (wf.fprOf 1) = true ∧
    fpSign (wf.fprOf 4) = false ∧ fpSign (wf.fprOf 5) = true ∧ fpSign (wf.fprOf 0) = false ∧
    [wf.fprOf 0, wf.fprOf 1, wf.fprOf 4, wf.fprOf 5, wf.fprOf 7, wf.fprOf 8, wf.fprOf 11].all repSingle = true ∧
    isSNaN (wf.fprOf 7) = true ∧ isNaN (wf.fprOf 1) = false ∧
    isNumber (wf.fprOf 8) = true ∧ fpSign (wf.fprOf 8) = true := by
  decide +kernel

theorem witness_enabled :
    (wfEnabled 0x80).Ieee ∧ bitAt (wfEnabled 0x80).fpscr 24 = true ∧ (wfEnabled 0x80).fpTrapsOn = true ∧
    bitAt (wfEnabled 0x10).fpscr 27 = true ∧ bitAt wf.fpscr 24 = false ∧ bitAt wf.fpscr 27 = false :=
  ⟨rfl, by decide, by decide, by decide, by decide, by decide⟩

/-- NaNOperands: NaNs that single format represents, with Invalid Operation disabled,
      and a Quiet one with it enabled. -/
theorem witness_nan : [wf.fprOf 1, wf.fprOf 6].any isNaN = true ∧ [wf.fprOf 1, wf.fprOf 6].all repSingle = true ∧
    [wf.fprOf 7, wf.fprOf 6].any isNaN = true ∧ bitAt wf.fpscr 24 = false ∧
    bitAt (wfEnabled 0x80).fpscr 24 = true ∧ [(wfEnabled 0x80).fprOf 1,
      (wfEnabled 0x80).fprOf 6].any isSNaN = false := by
  decide +kernel

/-- UnrepresentableOperands. -/
theorem witness_unrepresentable : [wf.fprOf 1, wf.fprOf 9].all repSingle = false := by decide +kernel

/-- RoundToSingleResults: what single format represents, a Quiet NaN, a zero,
      the least normalized exponent and a denormalized
single value with UE = 0 among them; a number that it does not represent; a Signaling NaN. -/
theorem witness_round_to_single :
    (∀ r ∈ [(0 : RegNum), 1, 6, 10], repSingle (wf.fprOf r) = true ∧ isSNaN (wf.fprOf r) = false) ∧
    isNaN (wf.fprOf 6) = true ∧ isZero (wf.fprOf 0) = true ∧ 897 ≤ fpExp (wf.fprOf 1) ∧
    (bitAt wf.fpscr 26 = false ∧ fpExp (wf.fprOf 10) < 897) ∧
    (isNumber (wf.fprOf 9) = true ∧ repSingle (wf.fprOf 9) = false) ∧ isSNaN (wf.fprOf 7) = true := by
  decide +kernel

/-- ConvertToIntegerResults: 3; 2.5, a tie; 2^63, just out of range, and -2^63, just in it; an infinity, a NaN. -/
theorem witness_convert_to_integer :
    RoundsAt (fpSign (wf.fprOf 3)) |(fpRat (wf.fprOf 3) : ℝ)| 0 (fld wf.fpscr 30 2) ⟨3, false, false⟩ ∧
    RoundsAt (fpSign (wf.fprOf 17)) |(fpRat (wf.fprOf 17) : ℝ)| 0 (fld wf.fpscr 30 2) ⟨2, false, true⟩ ∧
    (RoundsAt (fpSign (wf.fprOf 18)) |(fpRat (wf.fprOf 18) : ℝ)| 0 1 ⟨2 ^ 63, false, false⟩ ∧
      fpSign (wf.fprOf 18) = false) ∧
    (RoundsAt (fpSign (wf.fprOf 19)) |(fpRat (wf.fprOf 19) : ℝ)| 0 1 ⟨2 ^ 63, false, false⟩ ∧
      fpSign (wf.fprOf 19) = true) ∧
    (isInf (wf.fprOf 4) = true ∧ isNaN (wf.fprOf 7) = true) ∧
    ∀ r ∈ [(3 : RegNum), 17, 18, 19], isNaN (wf.fprOf r) = false ∧ isInf (wf.fprOf r) = false := by
  obtain ⟨_, _, h3, _, _, _, _, h17, h18, h19⟩ := wf_fpRat
  have h0 : fld wf.fpscr 30 2 = 0 := by decide
  rw [h3, h17, h18, h19, h0]
  exact ⟨⟨3, 0, by norm_num⟩, ⟨2, 1 / 2, by norm_num; decide⟩, ⟨⟨2 ^ 63, 0, by norm_num⟩, by decide⟩,
    ⟨⟨2 ^ 63, 0, by norm_num⟩, by decide⟩, by decide +kernel, by decide +kernel⟩

/-- ConvertFromIntegerResults: 2^53, the last of the exact ones, an integer above it, and 0. -/
theorem witness_convert_from_integer :
    (wf.fprOf 15).toInt.natAbs ≤ 2 ^ 53 ∧ (wf.fprOf 15).toInt ≠ 0 ∧ 2 ^ 53 < (wf.fprOf 9).toInt.natAbs ∧
    (wf.fprOf 0).toInt = 0 := by
  decide +kernel

/-- EstimateResults: positive and negative numbers, one whose reciprocal overflows,
      zeros with ZE = 0 and with ZE = 1, an
infinity, NaNs. -/
theorem witness_estimate :
    isNumber (wf.fprOf 2) = true ∧ fpSign (wf.fprOf 2) = false ∧ (isNumber (wf.fprOf 8) = true ∧ fpSign (wf.fprOf 8) = true) ∧
    isNumber (wf.fprOf 10) = true ∧ isZero (wf.fprOf 11) = true ∧ isInf (wf.fprOf 4) = true ∧
    bitAt wf.fpscr 27 = false ∧ (bitAt (wfEnabled 0x10).fpscr 27 = true ∧ isZero ((wfEnabled 0x10).fprOf 11) = true) ∧
    isNaN (wf.fprOf 6) = true ∧ isSNaN (wf.fprOf 7) = true ∧
    (∀ r ∈ [(2 : RegNum), 4, 6, 7, 8, 10, 11], repSingle (wf.fprOf r) = true) := by
  decide +kernel

theorem witness_estimate_overflow : recipHuge .sp (wf.fprOf 10) = true := by
  have h : fpRat FpFormat.sp.maxFin = 2 ^ 128 - 2 ^ 104 := wf_fpRat.2.2.2.2.2.2.1
  rw [recipHuge, h, wf_fpRat.2.2.2.2.1]
  norm_num

/-- NonIeeeModeRefused. -/
theorem witness_non_ieee :
    let s := { State.reset.setFpscr 4 with env := { Env.reset with hasNiMode := true } }
    s.env.hasNiMode = true ∧ bitAt s.fpscr 29 = true ∧ s.env.hasFpGeneral = true ∧ s.env.hasFpGraphics = true := by
  decide

end Sys2Proof.Tests
end

section
/-!
PROOFS, family 10_state.md.  What the proofs need of FPSCR masks: bits outside a mask, the bits that FEX and VX look at, and what
a computational instruction's outcome may do to them (10_state.md R61 to R65).
-/
namespace Sys2Proof.Machine

/-! ## Bits outside a mask -/

theorem bitAt_zero {w : Nat} (i : Nat) : bitAt (0 : BitVec w) i = false := by simp [bitAt]

theorem sameOutside_iff {w : Nat} {mask x y : BitVec w} :
    SameOutside mask x y ↔ ∀ i, i < w → bitAt mask i = false → bitAt y i = bitAt x i := by
  constructor
  · intro h i hi hm
    have hb := congrArg (bitAt · i) h
    simpa [bitAt_and, bitAt_not _ hi, hm] using hb
  · intro h
    apply eq_of_bitAt_eq
    intro i hi
    rw [bitAt_and, bitAt_and, bitAt_not _ hi]
    cases hm : bitAt mask i
    · rw [h i hi hm]
    · simp

theorem SameOutside.refl {w : Nat} (mask x : BitVec w) : SameOutside mask x x := rfl

theorem SameOutside.trans {w : Nat} {mask x y z : BitVec w} (h : SameOutside mask x y) (h' : SameOutside mask y z) :
    SameOutside mask x z := Eq.trans h' h

theorem SameOutside.or {w : Nat} {mask x y : BitVec w} (h : SameOutside mask x y) (k : BitVec w) :
    SameOutside mask (x ||| k) (y ||| k) := by
  rw [sameOutside_iff] at h ⊢
  intro i hi hm
  rw [bitAt_or, bitAt_or, h i hi hm]

theorem bitAt_fpBit {i j : Nat} (hi : i < 32) (hj : j < 32) : bitAt (fpBit j) i = decide (i = j) := by
  rw [Bool.eq_iff_iff]
  simp [bitAt, fpBit]
  omega

theorem bitAt_fpWhen (c : Bool) (x : Word) (i : Nat) : bitAt (fpWhen c x) i = (c && bitAt x i) := by
  cases c <;> simp [fpWhen, bitAt]

/-- `m` has no bit outside `mask`. -/
abbrev BitsWithin (mask m : Word) : Prop := m &&& mask = m

theorem BitsWithin.bit {mask m : Word} (h : BitsWithin mask m) {i : Nat} (hi : bitAt mask i = false) :
    bitAt m i = false := by
  rw [← h, bitAt_and, hi, Bool.and_false]

theorem BitsWithin.or {mask m n : Word} (h : BitsWithin mask m) (h' : BitsWithin mask n) :
    BitsWithin mask (m ||| n) := by
  unfold BitsWithin at *
  rw [BitVec.and_comm, BitVec.and_or_distrib_left, BitVec.and_comm, h, BitVec.and_comm, h']

theorem BitsWithin.when {mask m : Word} (h : BitsWithin mask m) (c : Bool) : BitsWithin mask (fpWhen c m) := by
  cases c
  · exact BitVec.zero_and
  · exact h

theorem BitsWithin.mono {mask mask' m : Word} (h : BitsWithin mask m) (hm : BitsWithin mask' mask) :
    BitsWithin mask' m := by
  unfold BitsWithin at *
  rw [← h, BitVec.and_assoc, hm]

theorem SameOutside.mono {mask mask' x y : Word} (h : SameOutside mask x y) (hm : BitsWithin mask' mask) :
    SameOutside mask' x y := by
  rw [sameOutside_iff] at h ⊢
  exact fun i hi hb => h i hi (hm.bit hb)

theorem SameOutside.orWithin {mask x y m : Word} (h : SameOutside mask x y) (hm : BitsWithin mask m) :
    SameOutside mask x (y ||| m) := by
  rw [sameOutside_iff] at h ⊢
  intro i hi hb
  rw [bitAt_or, hm.bit hb, Bool.or_false, h i hi hb]

/-! ## FPSCR bits -/

/-- FR, FI and FPRF: the FPSCR bits 13:19 (10_state.md R61). -/
def fpResultBits : Word := 0x7F000

theorem bitAt_fpResultBits : ∀ i, i < 32 → bitAt fpResultBits i = decide (13 ≤ i ∧ i ≤ 19) := by decide

theorem sameOutside_setFld {f : Word} {start len : Nat} (v : BitVec len) (h : 13 ≤ start) (h' : start + len ≤ 20) :
    SameOutside fpResultBits f (setFld f start v) := by
  rw [sameOutside_iff]
  intro i hi hm
  rw [bitAt_fpResultBits i hi, decide_eq_false_iff_not] at hm
  rw [bitAt_setFld _ _ hi (by omega), if_neg (by omega)]

theorem sameOutside_setFprf (f : Word) (c : BitVec 5) : SameOutside fpResultBits f (setFprf f c) :=
  sameOutside_setFld c (by decide) (by decide)

theorem sameOutside_setFrFi (f : Word) (fr fi : Bool) : SameOutside fpResultBits f (setFrFi f fr fi) :=
  (sameOutside_setFld (BitVec.ofBool fr) (start := 13) (by decide) (by decide)).trans
    (sameOutside_setFld (BitVec.ofBool fi) (start := 14) (by decide) (by decide))

theorem sameOutside_setRounded (f : Word) (inc inexact : Bool) :
    SameOutside fpResultBits (f ||| fpWhen inexact fpXx) (setRounded f inc inexact) :=
  (sameOutside_setFrFi f inc inexact).or _

theorem fpscrVx_congr {f g : Word} (h : ∀ i, 7 ≤ i → i ≤ 23 → i ≤ 12 ∨ 21 ≤ i → bitAt g i = bitAt f i) :
    fpscrVx g = fpscrVx f := by
  rw [fpscrVx_bits, fpscrVx_bits]
  simp only [h 7, h 8, h 9, h 10, h 11, h 12, h 21, h 22, h 23, Nat.reduceLeDiff, true_or, or_true]

theorem fpscrFex_congr {f g : Word} (h : ∀ i, 3 ≤ i → i ≤ 28 → i ≤ 12 ∨ 21 ≤ i → bitAt g i = bitAt f i) :
    fpscrFex g = fpscrFex f := by
  rw [fpscrFex, fpscrFex, fpscrVx_congr fun i h1 h2 h3 => h i (by omega) (by omega) h3]
  simp only [h 3, h 4, h 5, h 6, h 24, h 25, h 26, h 27, h 28, Nat.reduceLeDiff, true_or, or_true]

theorem fpscrFex_eq_of_sameOutside {f g : Word} (h : SameOutside fpResultBits f g) : fpscrFex g = fpscrFex f := by
  rw [sameOutside_iff] at h
  refine fpscrFex_congr fun i h1 h2 h3 => h i (by omega) ?_
  rw [bitAt_fpResultBits i (by omega), decide_eq_false_iff_not]
  omega

theorem bitAt_fex_of_summaries {f : Word} (h : FpscrSummaries f) : bitAt f 1 = fpscrFex f := by
  have hs := fpscrSummed_bit f (show 1 < 32 by decide)
  rwa [fpscrSummed_eq_self h, if_neg (by decide), if_pos rfl] at hs

theorem fpEndStatus_fex (old new : Word) : bitAt (fpEndStatus old new) 1 = fpscrFex new := by
  rw [fpEndStatus, fpscrSummed_bit _ (by decide), if_neg (by decide), if_pos rfl]
  refine fpscrFex_congr fun i h1 h2 _ => ?_
  rw [bitAt_or, bitAt_fpWhen, bitAt_fpBit (by omega) (by decide), decide_eq_false (by omega), Bool.and_false,
    Bool.or_false]

theorem fpEndStatus_bit (old new : Word) {i : Nat} (h : 3 ≤ i) (hi : i < 32) :
    bitAt (fpEndStatus old new) i = bitAt new i := by
  rw [fpEndStatus, fpscrSummed_bit _ hi, if_neg (by omega), if_neg (by omega), bitAt_or, bitAt_fpWhen,
    bitAt_fpBit hi (by decide), decide_eq_false (by omega), Bool.and_false, Bool.or_false]

theorem fpscrVx_or (f g : Word) : fpscrVx (f ||| g) = (fpscrVx f || fpscrVx g) := by
  simp only [fpscrVx_bits, bitAt_or]
  ac_rfl

theorem fpscrVx_of_clear {f g : Word} (h : fpscrVx (f &&& g) = true) : fpscrVx f = true := by
  have split : f = (f &&& g) ||| (f &&& ~~~g) := by
    rw [← BitVec.and_or_distrib_left, BitVec.or_not_self, BitVec.and_allOnes]
  rw [split, fpscrVx_or, h, Bool.true_or]

/-- Clearing FPSCR bits cannot raise FEX. -/
theorem fpscrFex_of_clear {f g : Word} (h : fpscrFex (f &&& g) = true) : fpscrFex f = true := by
  have hv : fpscrVx (f &&& g) = true → fpscrVx f = true := fpscrVx_of_clear
  simp only [fpscrFex, bitAt_and, Bool.or_eq_true, Bool.and_eq_true] at h ⊢
  grind

/-- The exception bits that arithmetic sets: 3:12, 22 and 23 (10_state.md R61; bit 21, VXSOFT, is software's). -/
def fpArithBits : Word := 0x1FF80300

theorem bitAt_fpArithBits :
    ∀ i, i < 32 → bitAt fpArithBits i = decide (3 ≤ i ∧ i ≤ 12 ∨ i = 22 ∨ i = 23) := by decide

/-- The Invalid Operation bits among them: 7:12, 22 and 23. -/
def fpInvalidBits : Word := 0x01F80300

/-- The status bits: all but the reserved bit 20, VXSOFT, and the control bits 24:31. -/
def fpStatusBits : Word := 0xFFFFF300

theorem bitAt_fpInvalidBits :
    ∀ i, i < 32 → bitAt fpInvalidBits i = decide (7 ≤ i ∧ i ≤ 12 ∨ i = 22 ∨ i = 23) := by decide

theorem bitAt_fpStatusBits :
    ∀ i, i < 32 → bitAt fpStatusBits i = decide (i < 20 ∨ i = 22 ∨ i = 23) := by decide

/-- An exception among `m` is enabled in the FPSCR `f`. -/
def fpEnabled (f m : Word) : Bool :=
  (fpscrVx m && fpVe f) || (bitAt m 3 && fpOe f) || (bitAt m 4 && fpUe f) || (bitAt m 5 && fpZe f) ||
    (bitAt m 6 && fpXe f)

/-- Adding exception bits raises FEX exactly where one of them is enabled. -/
theorem fpscrFex_or {m : Word} (h : BitsWithin fpArithBits m) (f : Word) :
    fpscrFex (f ||| m) = (fpscrFex f || fpEnabled f m) := by
  have e : ∀ i, 24 ≤ i → i ≤ 28 → bitAt m i = false := fun i h1 h2 =>
    h.bit (by rw [bitAt_fpArithBits i (by omega)]; exact decide_eq_false (by omega))
  simp only [fpscrFex, fpEnabled, fpscrVx_or, bitAt_or, fpVe, fpOe, fpUe, fpZe, fpXe, e 24, e 25, e 26, e 27, e 28,
    Nat.reduceLeDiff, Bool.or_false, Bool.and_or_distrib_right]
  ac_rfl

/-! ## What a computational instruction makes of the FPSCR (47_fp_model.md R534, R555) -/

/-- The outcome adds the exception bits `m` to the FPSCR `f`, writes FR, FI and FPRF, and counts as caused exactly where one of
the bits added is enabled. -/
structure FpOutcome.Adds (o : FpOutcome) (f m : Word) : Prop where
  mask   : BitsWithin fpArithBits m
  bits   : SameOutside fpResultBits (f ||| m) o.fpscr
  caused : o.caused = fpEnabled f m

/-- What every outcome keeps to: it writes status bits only, and the exceptions that newly raise FEX are those caused. -/
structure FpOutcome.Sound (o : FpOutcome) (f : Word) : Prop where
  status  : SameOutside fpStatusBits f o.fpscr
  caused  : o.caused = true → fpscrFex o.fpscr = true
  pending : fpscrFex o.fpscr = true → fpscrFex f = true ∨ o.caused = true

theorem FpOutcome.Adds.sound {o : FpOutcome} {f m : Word} (h : o.Adds f m) : o.Sound f := by
  have hx : fpscrFex o.fpscr = (fpscrFex f || o.caused) := by
    rw [fpscrFex_eq_of_sameOutside h.bits, fpscrFex_or h.mask, h.caused]
  refine ⟨?_, fun hc => by rw [hx, hc, Bool.or_true], fun hp => by rwa [hx, Bool.or_eq_true] at hp⟩
  exact ((SameOutside.refl _ f).orWithin (h.mask.mono (by decide))).trans (h.bits.mono (by decide))

end Sys2Proof.Machine
end

section
/-!
PROOFS, family 10_state.md.  Every computational operation writes status bits only and counts an exception as caused exactly where it
raises an enabled one (47_fp_model.md R534, R540 to R556).
-/
namespace Sys2Proof.Machine

/-! ## The outcomes of the computational instructions -/

section
variable (f : Word)

@[simp] theorem fpEnabled_or (m n : Word) : fpEnabled f (m ||| n) = (fpEnabled f m || fpEnabled f n) := by
  simp only [fpEnabled, fpscrVx_or, bitAt_or, Bool.and_or_distrib_right]
  ac_rfl

@[simp] theorem fpEnabled_zero : fpEnabled f 0 = false := by
  have h : fpscrVx 0 = false := by decide
  rw [fpEnabled, h]
  simp [bitAt]

@[simp] theorem fpEnabled_when (c : Bool) (m : Word) : fpEnabled f (fpWhen c m) = (c && fpEnabled f m) := by
  cases c
  · exact fpEnabled_zero f
  · exact (Bool.true_and _).symm

/-- An exception bit other than those of Invalid Operation has its own enable bit. -/
@[simp] theorem fpEnabled_single :
    fpEnabled f fpOx = fpOe f ∧ fpEnabled f fpUx = fpUe f ∧ fpEnabled f fpZx = fpZe f ∧ fpEnabled f fpXx = fpXe f := by
  have vx : fpscrVx fpOx = false ∧ fpscrVx fpUx = false ∧ fpscrVx fpZx = false ∧ fpscrVx fpXx = false := by decide
  obtain ⟨ho, hu, hz, hx⟩ := vx
  refine ⟨?_, ?_, ?_, ?_⟩
  · rw [fpEnabled, ho]; simp [fpOx, bitAt_fpBit]
  · rw [fpEnabled, hu]; simp [fpUx, bitAt_fpBit]
  · rw [fpEnabled, hz]; simp [fpZx, bitAt_fpBit]
  · rw [fpEnabled, hx]; simp [fpXx, bitAt_fpBit]

end

theorem fpscrVx_of_invalid {vx : Word} (h : BitsWithin fpInvalidBits vx) : fpscrVx vx = (vx != 0) := by
  rw [Bool.eq_iff_iff, bne_iff_ne, ← Bool.not_eq_false, not_iff_not]
  constructor
  · intro hv
    rw [fpscrVx_bits] at hv
    simp only [Bool.or_eq_false_iff] at hv
    apply eq_of_bitAt_eq
    intro i hi
    by_cases hb : 7 ≤ i ∧ i ≤ 12 ∨ i = 22 ∨ i = 23
    · have : i = 7 ∨ i = 8 ∨ i = 9 ∨ i = 10 ∨ i = 11 ∨ i = 12 ∨ i = 22 ∨ i = 23 := by omega
      rcases this with rfl | rfl | rfl | rfl | rfl | rfl | rfl | rfl <;>
        simp only [hv, bitAt_zero]
    · rw [h.bit (by rw [bitAt_fpInvalidBits i hi]; exact decide_eq_false hb), bitAt_zero]
  · rintro rfl
    decide

theorem fpEnabled_invalid {vx : Word} (h : BitsWithin fpInvalidBits vx) (f : Word) :
    fpEnabled f vx = (vx != 0 && fpVe f) := by
  have z : ∀ i, 3 ≤ i → i ≤ 6 → bitAt vx i = false := fun i h1 h2 =>
    h.bit (by rw [bitAt_fpInvalidBits i (by omega)]; exact decide_eq_false (by omega))
  simp [fpEnabled, fpscrVx_of_invalid h, z]

theorem BitsWithin.arith {vx : Word} (h : BitsWithin fpInvalidBits vx) : BitsWithin fpArithBits vx := h.mono (by decide)

theorem fpInvalid_adds {vx : Word} (h : BitsWithin fpInvalidBits vx) (hn : vx ≠ 0) (nan : DWord) (f : Word) :
    (fpInvalid vx nan f).Adds f vx := by
  have hb := sameOutside_setFrFi (f ||| vx) false false
  have he : fpEnabled f vx = fpVe f := by rw [fpEnabled_invalid h, bne_iff_ne.mpr hn, Bool.true_and]
  unfold fpInvalid
  cases hv : fpVe f
  · exact ⟨h.arith, hb.trans (sameOutside_setFprf _ _), (he.trans hv).symm⟩
  · exact ⟨h.arith, hb, (he.trans hv).symm⟩

theorem fpExact_adds (fmt : FpFormat) (x : DWord) (f : Word) : (fpExact fmt x f).Adds f 0 := by
  refine ⟨BitVec.zero_and, ?_, (fpEnabled_zero f).symm⟩
  rw [show f ||| 0 = f from BitVec.or_zero]
  exact (sameOutside_setFrFi f false false).trans (sameOutside_setFprf _ _)

theorem fpZeroDivide_adds (fmt : FpFormat) (s : Bool) (f : Word) : (fpZeroDivide fmt s f).Adds f fpZx := by
  have hb := sameOutside_setFrFi (f ||| fpZx) false false
  unfold fpZeroDivide
  cases hz : fpZe f
  · exact ⟨by decide, hb.trans (sameOutside_setFprf _ _), by simp [hz]⟩
  · exact ⟨by decide, hb, by simp [hz]⟩

theorem roundTiny_adds (fmt : FpFormat) (s : Bool) (v : Magnitude) (f : Word) (h : fpUe f = false) :
    ∃ m, (roundTiny fmt s v f).Adds f m :=
  ⟨fpWhen _ fpXx ||| fpWhen _ fpUx, (BitsWithin.when (by decide) _).or (BitsWithin.when (by decide) _),
    by rw [← BitVec.or_assoc]; exact ((sameOutside_setRounded f _ _).or _).trans (sameOutside_setFprf _ _),
    by simp [roundTiny, h]⟩

theorem roundAdjusted_adds (s : Bool) (r : Rounded) (q d : Int) {mask f : Word} (h : BitsWithin fpArithBits mask)
    (he : fpEnabled f mask = true) : ∃ m, (roundAdjusted s r q d mask f).Adds f m :=
  ⟨fpWhen r.inexact fpXx ||| mask, (BitsWithin.when (by decide) _).or h,
    by rw [← BitVec.or_assoc]; exact ((sameOutside_setRounded f _ _).or _).trans (sameOutside_setFprf _ _),
    by simp [roundAdjusted, he]⟩

/-- A result rounded within range adds XX if it is inexact. -/
theorem rounded_adds (f : Word) (inc inexact : Bool) (c : BitVec 5) (x : DWord) :
    FpOutcome.Adds ⟨setFprf (setRounded f inc inexact) c, some x, inexact && fpXe f⟩ f (fpWhen inexact fpXx) :=
  ⟨BitsWithin.when (by decide) _, (sameOutside_setRounded f _ _).trans (sameOutside_setFprf _ _), by simp⟩

theorem roundResult_adds (fmt : FpFormat) (s : Bool) (v : Magnitude) (f : Word) (u : Bool) :
    ∃ m, (roundResult fmt s v f u).Adds f m := by
  unfold roundResult
  extract_lets q r x y
  split
  · cases hu : fpUe f
    · exact roundTiny_adds fmt s v f hu
    · exact roundAdjusted_adds s _ _ _ (by decide) (by simp [hu])
  · split
    · cases ho : fpOe f
      · refine ⟨fpOx ||| fpXx, by decide, ?_, by simp [ho]⟩
        rw [← BitVec.or_assoc]
        exact (((sameOutside_setFrFi f _ _).or _).or _).trans (sameOutside_setFprf _ _)
      · exact roundAdjusted_adds s _ _ _ (by decide) (by simp [ho])
    · exact ⟨_, rounded_adds f _ _ _ _⟩

/-- Every computation through the common skeleton adds exception bits, those of Invalid Operation where there are any. -/
theorem fpCompute_adds (fmt : FpFormat) {vx : Word} (h : BitsWithin fpInvalidBits vx) (operands : List DWord)
    (result : ExactResult) (f : Word) (u : Bool) : ∃ m, (fpCompute fmt vx operands result f u).Adds f m := by
  unfold fpCompute
  split
  · rename_i hn
    exact ⟨_, fpInvalid_adds h hn _ f⟩
  · split
    · exact ⟨_, fpExact_adds fmt _ f⟩
    · cases result with
      | exact x => exact ⟨_, fpExact_adds fmt x f⟩
      | zeroDivide s => exact ⟨_, fpZeroDivide_adds fmt s f⟩
      | finite s v => exact roundResult_adds fmt s v f u

theorem fpCompute_sound (fmt : FpFormat) {vx : Word} (h : BitsWithin fpInvalidBits vx) (operands : List DWord)
    (result : ExactResult) (f : Word) (u : Bool) : (fpCompute fmt vx operands result f u).Sound f :=
  (fpCompute_adds fmt h operands result f u).elim fun _ ha => ha.sound

theorem vxsnanOf_within (operands : List DWord) : BitsWithin fpInvalidBits (vxsnanOf operands) :=
  BitsWithin.when (by decide) _

section
variable (fmt : FpFormat) (f : Word) (u : Bool)

theorem fpAdd_sound (a b y : DWord) : (fpAdd fmt a b y f u).Sound f :=
  fpCompute_sound fmt ((vxsnanOf_within _).or (BitsWithin.when (by decide) _)) _ _ f u

theorem fpMul_sound (a c : DWord) : (fpMul fmt a c f u).Sound f :=
  fpCompute_sound fmt ((vxsnanOf_within _).or (BitsWithin.when (by decide) _)) _ _ f u

theorem fpDiv_sound (a b : DWord) : (fpDiv fmt a b f u).Sound f :=
  fpCompute_sound fmt
    (((vxsnanOf_within _).or (BitsWithin.when (by decide) _)).or (BitsWithin.when (by decide) _)) _ _ f u

theorem fpSqrt_sound (b : DWord) : (fpSqrt fmt b f u).Sound f :=
  fpCompute_sound fmt ((vxsnanOf_within _).or (BitsWithin.when (by decide) _)) _ _ f u

/-- Negating a result rewrites FPRF alone. -/
theorem FpOutcome.Adds.negated {o : FpOutcome} {f m : Word} (h : o.Adds f m) : o.negated.Adds f m :=
  ⟨h.mask, h.bits.trans (sameOutside_setFprf _ _), h.caused⟩

theorem negatedIf_sound {o : FpOutcome} {f m : Word} (c : Bool) (h : o.Adds f m) :
    (if c then o.negated else o).Sound f := by
  cases c
  · exact h.sound
  · exact h.negated.sound

theorem fpMAdd_sound (sub neg : Bool) (a b c : DWord) : (fpMAdd fmt sub neg a b c f u).Sound f := by
  obtain ⟨m, ha⟩ := fpCompute_adds fmt
    (((vxsnanOf_within [a, b, c]).or (BitsWithin.when (by decide) (isInfTimesZero a c) (m := fpVximz))).or
      (BitsWithin.when (by decide)
        (isInfProduct a c && isInf b && fpSign (if sub then fpNegated b else b) != (fpSign a != fpSign c))
        (m := fpVxisi)))
    [a, b, c] (fpFused a c (if sub then fpNegated b else b) f) f u
  exact negatedIf_sound _ ha

theorem fpRoundSingle_sound (b : DWord) : (fpRoundSingle b f u).Sound f := by
  unfold fpRoundSingle
  split
  · exact (fpInvalid_adds (by decide) (by decide) _ f).sound
  · split
    · exact (fpExact_adds .sp _ f).sound
    · split
      · exact (fpExact_adds .sp b f).sound
      · exact (roundResult_adds .sp _ _ f u).elim fun _ ha => ha.sound

theorem fpIntInvalid_sound (word : Bool) (b : DWord) {vx : Word} (h : BitsWithin fpInvalidBits vx) (hn : vx ≠ 0)
    (v : DWord) : (fpIntInvalid word b vx f v).Sound f := by
  have hb := sameOutside_setFrFi (f ||| vx) false false
  have he : fpEnabled f vx = fpVe f := by rw [fpEnabled_invalid h, bne_iff_ne.mpr hn, Bool.true_and]
  unfold fpIntInvalid
  cases hv : fpVe f
  · exact FpOutcome.Adds.sound ⟨h.arith, hb.trans (sameOutside_setFprf _ _), (he.trans hv).symm⟩
  · exact FpOutcome.Adds.sound ⟨h.arith, hb, (he.trans hv).symm⟩

theorem fpToInt_sound (word : Bool) (mode : BitVec 2) (b v : DWord) : (fpToInt word mode b f v).Sound f := by
  unfold fpToInt
  split
  · exact fpIntInvalid_sound f word b (by decide) (by decide) v
  · split
    · exact fpIntInvalid_sound f word b (by decide) (by decide) v
    · extract_lets r n
      split
      · exact fpIntInvalid_sound f word b (by decide) (by decide) v
      · exact (rounded_adds f _ _ _ _).sound

theorem fpFromInt_sound (b : DWord) : (fpFromInt b f).Sound f := by
  unfold fpFromInt
  dsimp only
  split
  · exact (fpExact_adds .dp _ f).sound
  · exact (rounded_adds f _ _ _ _).sound

/-- A compare adds exception bits as an operation without target does. -/
theorem fpCompare_sound (ordered : Bool) (a b : DWord) :
    FpOutcome.Sound ⟨setFld f 16 (fpCompareCode a b) ||| fpCompareVx ordered a b f, none,
      fpCompareVx ordered a b f != 0 && fpVe f⟩ f := by
  have hm : BitsWithin fpInvalidBits (fpCompareVx ordered a b f) := by
    unfold fpCompareVx
    split
    · exact BitsWithin.or (by decide) (BitsWithin.when (by decide) _)
    · exact BitsWithin.when (by decide) _
  exact FpOutcome.Adds.sound
    ⟨hm.arith, (sameOutside_setFld _ (by decide) (by decide)).or _, (fpEnabled_invalid hm f).symm⟩

theorem sameOutside_estimateStatus (u : DWord) : SameOutside fpStatusBits f (estimateStatus f u) := by
  refine ((sameOutside_setFrFi f (bitAt u 63) (bitAt u 62)).mono (by decide)).trans ?_
  rw [sameOutside_iff]
  intro i hi hm
  rw [bitAt_fpStatusBits i hi, decide_eq_false_iff_not] at hm
  rw [estimateStatus, bitAt_setBitAt _ _ hi (by decide), if_neg (by omega)]

theorem estimateResult_status (rsqrt : Bool) (b u v : DWord) :
    SameOutside fpStatusBits f (estimateResult fmt rsqrt b f u v).1 := by
  have h1 := sameOutside_estimateStatus f u
  have hp : ∀ g c, SameOutside fpStatusBits f g → SameOutside fpStatusBits f (setFprf g c) := fun g c hg =>
    hg.trans ((sameOutside_setFprf g c).mono (by decide))
  have hvx : BitsWithin fpStatusBits (vxsnanOf [b] ||| fpWhen (rsqrt && isNegative b) fpVxsqrt) :=
    ((vxsnanOf_within [b]).or (BitsWithin.when (by decide) _)).mono (by decide)
  unfold estimateResult
  dsimp only
  split
  · split
    · exact h1.orWithin hvx
    · exact hp _ _ (h1.orWithin hvx)
  · split
    · exact hp _ _ h1
    · split
      · split
        · exact h1.orWithin (by decide)
        · exact hp _ _ (h1.orWithin (by decide))
      · split
        · exact hp _ _ h1
        · exact hp _ _ (h1.orWithin ((BitsWithin.when (by decide) _).or (BitsWithin.when (by decide) _)))

theorem fpEstimate_sound (rsqrt : Bool) (b v w : DWord) : (fpEstimate fmt rsqrt b f v w).Sound f :=
  ⟨estimateResult_status fmt f rsqrt b v w, id, .inr⟩

end

end Sys2Proof.Machine
end

section
/-!
PROOFS, family 10_state.md.  The frame of a computational instruction, whatever its operands (47_fp_model.md R516, R555).
-/
namespace Sys2Proof.Machine

/-! ## The computational instructions -/

/-- `m` is what a computational instruction with target `frt` leaves of `s` before its `pc` advances: FRT, the FPSCR status bits
and CR Field 1 (if `rc`) at most; `caused` says whether an enabled exception occurred. -/
structure State.Computed (s m : State) (frt : RegNum) (rc caused : Bool) : Prop where
  frame     : m = { s with fpr := m.fpr, single := m.single, fpscr := m.fpscr, cr := m.cr, undef := m.undef }
  others    : s.OtherFprs m frt
  record    : if rc then s.OtherCrFields m 1 else m.cr = s.cr
  summaries : FpscrSummaries m.fpscr
  controls  : ∀ i, i < 32 → i = 20 ∨ i = 21 ∨ 24 ≤ i → bitAt m.fpscr i = bitAt s.fpscr i
  enabled   : caused = true → bitAt m.fpscr 1 = true
  pending   : FpscrSummaries s.fpscr → bitAt m.fpscr 1 = true → bitAt s.fpscr 1 = true ∨ caused = true

/-- The instruction runs to its end and is within `State.Computed`. -/
def Computes (res : Res) (s : State) (frt : RegNum) (rc : Bool) : Prop :=
  ∃ m caused, res = fpComplete caused m ∧ s.Computed m frt rc caused

theorem bitAt_control_of_status {f g : Word} (h : SameOutside fpStatusBits f g) {i : Nat} (hi : i < 32)
    (hc : i = 20 ∨ i = 21 ∨ 24 ≤ i) : bitAt g i = bitAt f i :=
  sameOutside_iff.mp h i hi (by rw [bitAt_fpStatusBits i hi]; exact decide_eq_false (by omega))

theorem State.record1_otherCrFields (s : State) (rc : Bool) :
    if rc then s.OtherCrFields (s.record1 rc) 1 else (s.record1 rc).cr = s.cr := by
  cases rc
  · rfl
  · exact s.otherCrFields_setCrField 1 _

theorem State.setFpr_otherFprs (s : State) (r : RegNum) (v : DWord) (b : Bool) : s.OtherFprs (s.setFpr r v b) r :=
  fun q hq => ⟨by rw [State.fprOf_setFpr, if_neg hq], by rw [State.singleOf_setFpr, if_neg hq]⟩

theorem State.setFprIf_otherFprs (s : State) (r : RegNum) (v : Option DWord) (b : Bool) :
    s.OtherFprs (s.setFprIf r v b) r := by
  cases v with
  | none => exact fun q _ => ⟨rfl, rfl⟩
  | some x => exact s.setFpr_otherFprs r x b

theorem State.setFprIf_frame (s : State) (r : RegNum) (v : Option DWord) (b : Bool) :
    s.setFprIf r v b = { s with fpr := (s.setFprIf r v b).fpr, single := (s.setFprIf r v b).single } := by
  cases v <;> rfl

/-- Applying a sound outcome. -/
theorem fpApply_computed (frt : RegNum) (single rc : Bool) {o : FpOutcome} (s : State) (h : o.Sound s.fpscr) :
    s.Computed (fpApply frt single rc o s) frt rc o.caused := by
  have hf : (fpApply frt single rc o s).fpscr = fpEndStatus s.fpscr o.fpscr := congrArg State.fpscr (fpApply_frame ..)
  have hx : bitAt (fpApply frt single rc o s).fpscr 1 = fpscrFex o.fpscr := by rw [hf, fpEndStatus_fex]
  refine ⟨by rw [fpApply_frame], ?_, ?_, ?_, ?_, ?_, ?_⟩
  · intro q hq
    unfold fpApply
    rw [State.record1_frame]
    exact s.setFprIf_otherFprs frt o.frt single q hq
  · have hr := State.record1_otherCrFields ((s.setFprIf frt o.frt single).setFpscr (fpEndStatus s.fpscr o.fpscr)) rc
    rw [State.setFprIf_frame] at hr
    unfold fpApply
    rw [State.setFprIf_frame]
    exact hr
  · rw [hf]
    exact fpEndStatus_summaries _ _
  · intro i hi hc
    rw [hf, fpEndStatus_bit _ _ (by omega) hi]
    exact bitAt_control_of_status h.status hi hc
  · rw [hx]
    exact h.caused
  · intro hs
    rw [hx, bitAt_fex_of_summaries hs]
    exact h.pending

theorem fpRun_computes (frt : RegNum) (single rc : Bool) {o : Word → DWord → FpOutcome} (s : State)
    (h : ∀ f u, (o f u).Sound f) : Computes (fpRun frt single rc o s) s frt rc := by
  obtain ⟨frame, others, record, summaries, controls, enabled, pending⟩ :=
    fpApply_computed frt single rc s.drawn (h s.fpscr (s.draw 64))
  exact ⟨_, _, rfl, frame, others, record, summaries, controls, enabled, pending⟩

/-- The undefined outcome keeps to the same frame where `mask` holds status bits only. -/
theorem fpUndefined_computes (frt : RegNum) (rc : Bool) {mask : Word} (s : State) (h : BitsWithin fpStatusBits mask) :
    Computes (fpUndefined frt rc mask s) s frt rc := by
  have hs : ∀ u, FpscrSummaries (fpUndefinedStatus s.fpscr mask u) := fun u => fpscrSummed_summaries _
  have hc : ∀ u i, i < 32 → i = 20 ∨ i = 21 ∨ 24 ≤ i →
      bitAt (fpUndefinedStatus s.fpscr mask u) i = bitAt s.fpscr i := fun u i hi hc => by
    have hm : bitAt mask i = false := h.bit (by rw [bitAt_fpStatusBits i hi]; exact decide_eq_false (by omega))
    rw [fpUndefinedStatus, fpscrSummed_bit _ hi, if_neg (by omega), if_neg (by omega), bitAt_or, bitAt_and, bitAt_and,
      bitAt_not _ hi, hm]
    simp
  have ho := s.setFpr_otherFprs frt (s.draw 64) true
  cases rc
  · exact ⟨_, _, rfl, rfl, ho, rfl, hs _, hc _, id, fun _ => .inr⟩
  · exact ⟨_, _, rfl, rfl, ho, s.otherCrFields_setCrField 1 _, hs _, hc _, id, fun _ => .inr⟩

theorem fpEstimateRun_computes (fmt : FpFormat) (single rsqrt : Bool) (frt frb : RegNum) (rc : Bool) (s : State) :
    Computes (fpEstimateRun fmt single rsqrt frt frb rc s) s frt rc := by
  obtain ⟨m, c, hr, frame, others, record, summaries, controls, enabled, pending⟩ :=
    fpRun_computes frt single rc s.drawn fun f u =>
      fpEstimate_sound fmt f rsqrt (s.drawn.fprOf frb) (s.draw 64) u
  exact ⟨m, c, hr, frame, others, record, summaries, controls, enabled, pending⟩

/-- A single-precision instruction: its outcome where the operands are representable, else the undefined one. -/
theorem fpSingleBody_computes (frt : RegNum) (rc : Bool) (operands : List DWord) {mask : Word}
    {o : Word → DWord → FpOutcome} (s : State) (hm : BitsWithin fpStatusBits mask) (h : ∀ f u, (o f u).Sound f) :
    Computes (if operands.all repSingle then fpRun frt true rc o s else fpUndefined frt rc mask s) s frt rc := by
  split
  · exact fpRun_computes frt true rc s h
  · exact fpUndefined_computes frt rc s hm

theorem fpSingleEstimate_computes (rsqrt : Bool) (frt frb : RegNum) (rc : Bool) {mask : Word} (s : State)
    (hm : BitsWithin fpStatusBits mask) :
    Computes (if repSingle (s.fprOf frb) then fpEstimateRun .sp true rsqrt frt frb rc s else fpUndefined frt rc mask s)
      s frt rc := by
  split
  · exact fpEstimateRun_computes .sp true rsqrt frt frb rc s
  · exact fpUndefined_computes frt rc s hm

theorem fpGuard_of_nonIeee {s : State} (hn : s.env.hasNiMode = true) (hb : bitAt s.fpscr 29 = true) (k : Unit → Res) :
    fpGuard s k = .refused .nonIeeeMode := by
  simp [fpGuard, hn, hb]

end Sys2Proof.Machine
end

section
/-!
PROOFS, family 10_state.md.  What an instruction can do, said once as the relation `Effect`, and each shared operation within it.
-/
namespace Sys2Proof.Machine

/-! ## What an instruction can do -/

/-- `m` is what a completing instruction leaves of `s` before its `pc` advances, branches, mtspr and mcrxr excepted: LR, CTR and
what belongs to the run stay, SO is sticky, storage and the FPSCR keep their form, and FEX rises only with an exception that
counts as `caused`. -/
structure State.Keeps (s m : State) (caused : Bool) : Prop where
  frame     : m = { s with gpr := m.gpr, fpr := m.fpr, single := m.single, cr := m.cr, xer := m.xer, fpscr := m.fpscr,
                           mem := m.mem, stored := m.stored, undef := m.undef }
  sticky    : s.so = true → m.so = true
  memory    : s.mem.wf = true → m.mem.wf = true
  stored    : addrsWf s.stored = true → addrsWf m.stored = true
  summaries : FpscrSummaries s.fpscr → FpscrSummaries m.fpscr
  pending   : FpscrSummaries s.fpscr → bitAt m.fpscr 1 = true → bitAt s.fpscr 1 = true ∨ caused = true

/-- Where a branch leaves the machine: LR if `lk`, CTR if `counts`, and an instruction address in `pc` (40_branch.md R203,
R205). -/
def State.branched (s : State) (lk counts : Bool) (a : DWord) : State :=
  { s with lr := if lk then s.nextPc else s.lr, ctr := if counts then s.ctr - 1 else s.ctr, pc := s.iea a }

/-- Everything an instruction with a next state can do: raise an event and change nothing else, complete, branch, or write a
special register. -/
inductive Effect : Instr → State → State → Prop
  | raises (i : Instr) (s : State) (e : Event) : Effect i s { s with event := some e }
  | completes (i : Instr) {s m : State} {caused : Bool} (h : s.Keeps m caused) :
      Effect i s { m with pc := m.nextPc, event := m.enabledEvent caused }
  | b (li : BitVec 24) (aa lk : Bool) (s : State) (a : DWord) : Effect (.b li aa lk) s (s.branched lk false a)
  | bc (bo bi : BitVec 5) (bd : BitVec 14) (aa lk : Bool) (s : State) (a : DWord) :
      Effect (.bc bo bi bd aa lk) s (s.branched lk (!bitAt bo 2) a)
  | bclr (bo bi : BitVec 5) (bh : BitVec 2) (lk : Bool) (s : State) (a : DWord) :
      Effect (.bclr bo bi bh lk) s (s.branched lk (!bitAt bo 2) a)
  | bcctr (bo bi : BitVec 5) (bh : BitVec 2) (lk : Bool) (s : State) (a : DWord) :
      Effect (.bcctr bo bi bh lk) s (s.branched lk false a)
  | mtxer (rs : RegNum) (s : State) (v : DWord) : Effect (.mtspr rs 1) s { s with xer := v, pc := s.nextPc }
  | mtlr (rs : RegNum) (s : State) (v : DWord) : Effect (.mtspr rs 8) s { s with lr := v, pc := s.nextPc }
  | mtctr (rs : RegNum) (s : State) (v : DWord) : Effect (.mtspr rs 9) s { s with ctr := v, pc := s.nextPc }
  | mcrxr (bf : BitVec 3) (s : State) (c : Word) (x : DWord) (n : Nat) :
      Effect (.mcrxr bf) s { s with cr := c, xer := x, undef := n, pc := s.nextPc }

/-! ### Completing -/

/-- An instruction that writes registers other than XER and FPSCR. -/
theorem State.Keeps.of_frame {s m : State}
    (h : m = { s with gpr := m.gpr, fpr := m.fpr, single := m.single, cr := m.cr, undef := m.undef }) :
    s.Keeps m false := by
  rw [h]
  exact ⟨rfl, id, id, id, id, fun _ => .inl⟩

theorem State.Keeps.refl (s : State) : s.Keeps s false := .of_frame rfl

theorem State.Keeps.trans {s m n : State} {caused : Bool} (h : s.Keeps m false) (h' : m.Keeps n caused) :
    s.Keeps n caused where
  frame := by rw [h'.frame, h.frame]
  sticky := h'.sticky ∘ h.sticky
  memory := h'.memory ∘ h.memory
  stored := h'.stored ∘ h.stored
  summaries := h'.summaries ∘ h.summaries
  pending hs hn := (h'.pending (h.summaries hs) hn).imp_left fun hm => (h.pending hs hm).resolve_right (by decide)

/-- An instruction that also writes XER, SO being sticky. -/
theorem State.Keeps.of_xer {s m : State} (h : m = { s with xer := m.xer }) (hs : s.so = true → m.so = true) :
    s.Keeps m false := by
  rw [h] at hs ⊢
  exact ⟨rfl, hs, id, id, id, fun _ => .inl⟩

/-- An instruction that also writes the FPSCR. -/
theorem State.Keeps.of_fpscr {s m : State} {caused : Bool}
    (h : m = { s with fpr := m.fpr, single := m.single, cr := m.cr, fpscr := m.fpscr, undef := m.undef })
    (hs : FpscrSummaries m.fpscr)
    (hp : FpscrSummaries s.fpscr → bitAt m.fpscr 1 = true → bitAt s.fpscr 1 = true ∨ caused = true) :
    s.Keeps m caused := by
  rw [h] at hs hp ⊢
  exact ⟨rfl, id, id, id, fun _ => hs, hp⟩

theorem State.Computed.keeps {s m : State} {frt : RegNum} {rc caused : Bool} (h : s.Computed m frt rc caused) :
    s.Keeps m caused :=
  .of_fpscr h.frame h.summaries h.pending

theorem State.keeps_setCa (s : State) (c : Bool) : s.Keeps (s.setCa c) false :=
  .of_xer rfl fun h => (s.setCa_spec c).2.2.1.trans h

theorem State.keeps_overflow (s : State) (oe ov : Bool) : s.Keeps (s.overflow oe ov) false :=
  .of_xer (s.overflow_frame oe ov) fun h => (s.overflow_noted oe ov).2.trans (by rw [h, Bool.true_or])

theorem State.keeps_storeBytes (s : State) (ea : DWord) (bs : List Byte) : s.Keeps (s.storeBytes ea bs) false := by
  refine ⟨by rw [State.storeBytes_frame], ?_, s.storeBytes_wf ea bs, s.storeBytes_addrsWf ea bs, ?_, ?_⟩
  · rw [State.storeBytes_frame]; exact id
  · rw [State.storeBytes_frame]; exact id
  · rw [State.storeBytes_frame]; exact fun _ => .inl

theorem State.keeps_memWrite (s : State) (ea : DWord) (n : Nat) (v : DWord) : s.Keeps (s.memWrite ea n v) false :=
  s.keeps_storeBytes ea _

theorem State.recordWord_frame (s : State) (rc : Bool) (lo : Word) :
    s.recordWord rc lo = { s with cr := (s.recordWord rc lo).cr, undef := (s.recordWord rc lo).undef } := by
  unfold State.recordWord
  split
  · split <;> rfl
  · rfl

/-! ### The transfers of the multiple and string instructions -/

theorem State.loadWords_frame (s : State) (r : RegNum) (ea : DWord) (n : Nat) :
    s.loadWords r ea n = { s with gpr := (s.loadWords r ea n).gpr } := by
  induction n generalizing s r ea with
  | zero => rfl
  | succ n ih => rw [State.loadWords, ih]; rfl

theorem State.clearRegs_frame (s : State) (r : RegNum) (n : Nat) :
    s.clearRegs r n = { s with gpr := (s.clearRegs r n).gpr } := by
  induction n generalizing s r with
  | zero => rfl
  | succ n ih => rw [State.clearRegs, ih]; rfl

theorem State.loadString_frame (s : State) (r : RegNum) (ea : DWord) (j n : Nat) :
    s.loadString r ea j n = { s with gpr := (s.loadString r ea j n).gpr } := by
  induction n generalizing s j with
  | zero => rfl
  | succ n ih => rw [State.loadString, ih]; rfl

theorem State.loadStringInto_frame (s : State) (r : RegNum) (ea : DWord) (n : Nat) :
    s.loadStringInto r ea n = { s with gpr := (s.loadStringInto r ea n).gpr } := by
  rw [State.loadStringInto, State.loadString_frame, State.clearRegs_frame]

theorem State.keeps_storeWords (s : State) (r : RegNum) (ea : DWord) (n : Nat) :
    s.Keeps (s.storeWords r ea n) false := by
  induction n generalizing s r ea with
  | zero => exact .refl s
  | succ n ih => exact (s.keeps_memWrite ea 4 _).trans (ih _ _ _)

theorem State.keeps_storeString (s : State) (r : RegNum) (ea : DWord) (j n : Nat) :
    s.Keeps (s.storeString r ea j n) false := by
  induction n generalizing s j with
  | zero => exact .refl s
  | succ n ih => exact (s.keeps_storeBytes _ [_]).trans (ih _ _)

/-! ### The shared operations -/

/-- If the outcome is a next state, it is within what instruction `i` can do. -/
structure Does (i : Instr) (s : State) (res : Res) : Prop where
  effect : ∀ t, res = .next t → Effect i s t

section
variable {i : Instr} {s m : State} {caused : Bool}

theorem does_next {t : State} (h : Effect i s t) : Does i s (.next t) := by
  constructor
  rintro _ ⟨⟩
  exact h

theorem does_next_eq {res : Res} {t : State} (e : res = .next t) (h : Effect i s t) : Does i s res :=
  e ▸ does_next h

theorem does_raise (e : Event) : Does i s (raise e s) := does_next (.raises i s e)

theorem does_fpComplete (h : s.Keeps m caused) : Does i s (fpComplete caused m) := by
  rw [fpComplete_eq]
  exact does_next (.completes i h)

theorem does_finish (h : s.Keeps m false) : Does i s (finish m) := does_next (.completes i h)

/-- An instruction that completes with registers other than XER and FPSCR written. -/
theorem does_finish_frame
    (h : m = { s with gpr := m.gpr, fpr := m.fpr, single := m.single, cr := m.cr, undef := m.undef }) :
    Does i s (finish m) :=
  does_finish (.of_frame h)

theorem does_ite {c : Prop} [Decidable c] {a b : Res} (ha : Does i s a) (hb : Does i s b) :
    Does i s (if c then a else b) := by
  split
  · exact ha
  · exact hb

theorem does_writeResult (r : RegNum) (v : DWord) (rc : Bool) (h : s.Keeps m false) :
    Does i s (writeResult r v rc m) :=
  does_finish (h.trans (.of_frame (by rw [State.record_frame]; rfl)))

theorem does_addLike (rt : RegNum) (a b : DWord) (cin : BitVec 1) (ca oe rc : Bool) :
    Does i s (addLike rt a b cin ca oe rc s) := by
  cases ca
  · exact does_writeResult rt _ rc (s.keeps_overflow oe _)
  · exact does_writeResult rt _ rc ((s.keeps_setCa _).trans (State.keeps_overflow _ oe _))

theorem does_multiplyLow (rt : RegNum) (prod : Int) (w : Nat) (oe rc : Bool) :
    Does i s (multiplyLow rt prod w oe rc s) :=
  does_writeResult rt _ rc (s.keeps_overflow oe _)

theorem does_writeWordResult (rt : RegNum) (lo : Word) (rc : Bool) (h : s.Keeps m false) :
    Does i s (writeWordResult rt lo rc m) :=
  does_finish (h.trans (.of_frame (by rw [State.recordWord_frame]; rfl)))

theorem does_divideUndefined (rt : RegNum) (oe rc : Bool) : Does i s (divideUndefined rt oe rc s) := by
  have h : s.Keeps ((s.setGpr rt (s.draw 64)).drawn.overflow oe true) false :=
    (State.Keeps.of_frame rfl).trans (State.keeps_overflow _ oe true)
  cases rc
  · exact does_finish h
  · exact does_finish (h.trans (.of_frame rfl))

theorem does_shiftAlgebraic (ra : RegNum) (r mask : DWord) (sign word rc : Bool) :
    Does i s (shiftAlgebraic ra r mask sign word rc s) :=
  does_writeResult ra _ rc (s.keeps_setCa _)

theorem does_trapTest (a b : DWord) (tos : BitVec 5) : Does i s (trapTest a b tos s) :=
  does_ite (does_finish (.refl s)) (does_raise _)

theorem does_checkedAccess (kind : AccessKind) (ea : DWord) (n : Nat) (k : Unit → Res) (h : Does i s (k ())) :
    Does i s (checkedAccess kind ea n s k) := by
  rcases checkedAccess_cases kind ea n s k with ⟨-, e⟩ | ⟨-, -, e⟩ | ⟨-, e⟩
  · rw [e]; exact does_raise _
  · rw [e]; exact does_raise _
  · rw [e]; exact h

theorem does_loadThen (ea : DWord) (n : Nat) {k : DWord → Res} (h : ∀ v, Does i s (k v)) : Does i s (loadThen ea n s k) :=
  does_checkedAccess _ _ _ _ (h _)

/-- The continuation of a store starts from the state after it. -/
theorem does_storeThen (ea : DWord) (n : Nat) (v : DWord) {k : State → Res}
    (h : ∀ m, s.Keeps m false → Does i s (k m)) : Does i s (storeThen ea n v s k) :=
  does_checkedAccess _ _ _ _ (h _ (s.keeps_memWrite ea n v))

theorem does_checkedMultiple (kind : AccessKind) (words : Bool) (ea : DWord) (count : Nat) (k : Unit → Res)
    (h : Does i s (k ())) : Does i s (checkedMultiple kind words ea count s k) := by
  rcases checkedMultiple_cases kind words ea count s k with ⟨e, -⟩ | ⟨a, -, e⟩ | ⟨-, -, e⟩
  · rw [e]; exact does_raise _
  · rw [e]; exact does_raise _
  · rw [e]; exact h

theorem does_loadInto (rt : RegNum) (ea : DWord) (n : Nat) (ext : DWord → DWord) :
    Does i s (loadInto rt ea n ext s) :=
  does_loadThen ea n fun _ => does_finish_frame rfl

theorem does_loadUpdate (rt ra : RegNum) (ea : DWord) (n : Nat) (ext : DWord → DWord) :
    Does i s (loadUpdate rt ra ea n ext s) :=
  does_ite (does_raise _) (does_loadThen ea n fun _ => does_finish_frame rfl)

theorem does_storeFrom (v ea : DWord) (n : Nat) : Does i s (storeFrom v ea n s) :=
  does_storeThen ea n v fun _ h => does_finish h

theorem does_storeUpdate (ra : RegNum) (v ea : DWord) (n : Nat) : Does i s (storeUpdate ra v ea n s) :=
  does_ite (does_raise _) (does_storeThen ea n v fun _ h => does_finish (h.trans (.of_frame rfl)))

theorem does_fpLoad (frt : RegNum) (ea : DWord) (n : Nat) (conv : DWord → DWord) (single : Bool) :
    Does i s (fpLoad frt ea n conv single s) :=
  does_loadThen ea n fun _ => does_finish_frame rfl

theorem does_fpLoadUpdate (frt ra : RegNum) (ea : DWord) (n : Nat) (conv : DWord → DWord) (single : Bool) :
    Does i s (fpLoadUpdate frt ra ea n conv single s) :=
  does_ite (does_raise _) (does_loadThen ea n fun _ => does_finish_frame rfl)

theorem does_fpStore (v ea : DWord) (n : Nat) : Does i s (fpStore v ea n s) :=
  does_storeThen ea n v fun _ h => does_finish (h.trans (.of_frame rfl))

theorem does_fpStoreUpdate (ra : RegNum) (v ea : DWord) (n : Nat) : Does i s (fpStoreUpdate ra v ea n s) :=
  does_ite (does_raise _) (does_storeThen ea n v fun _ h => does_finish (h.trans (.of_frame rfl)))

theorem does_fpMove (frt frb : RegNum) (rc : Bool) (v : DWord) : Does i s (fpMove frt frb rc v s) :=
  does_finish_frame (by rw [State.record1_frame]; rfl)

theorem branchTo_branched (taken : Bool) (a : DWord) (lk : Bool) (s : State) :
    branchTo taken (s.iea a) lk s = .next (s.branched lk false (if taken then a else s.pc + 4)) := by
  rw [branchTo_eq]
  cases taken <;> rfl

theorem branchTo_countDown (taken : Bool) (a : DWord) (lk : Bool) (s : State) (bo : BitVec 5) :
    branchTo taken ((s.countDown bo).iea a) lk (s.countDown bo) =
      .next (s.branched lk (!bitAt bo 2) (if taken then a else s.pc + 4)) := by
  rw [branchTo_branched, State.countDown]
  cases bitAt bo 2 <;> rfl

theorem does_fpGuard (k : Unit → Res) (h : Does i s (k ())) : Does i s (fpGuard s k) :=
  does_ite ⟨fun _ ht => nomatch ht⟩ h

theorem Computes.does {res : Res} {frt : RegNum} {rc : Bool} (h : Computes res s frt rc) : Does i s res := by
  obtain ⟨m, c, rfl, hc⟩ := h
  exact does_fpComplete hc.keeps

theorem does_fpDouble (frt : RegNum) (rc : Bool) {o : Word → DWord → FpOutcome} (h : ∀ f u, (o f u).Sound f) :
    Does i s (fpDouble frt rc o s) :=
  does_fpGuard _ (fpRun_computes frt false rc s h).does

theorem does_fpSingle (frt : RegNum) (rc : Bool) (operands : List DWord) {mask : Word} {o : Word → DWord → FpOutcome}
    (hm : BitsWithin fpStatusBits mask) (h : ∀ f u, (o f u).Sound f) :
    Does i s (fpSingle frt rc operands mask o s) :=
  does_fpGuard _ (fpSingleBody_computes frt rc operands s hm h).does

/-- A Move To FPSCR instruction counts FEX = 1 as caused. -/
theorem does_fpMoveEnd (rc : Bool) {f : Word} (h : FpscrSummaries f) : Does i s (fpMoveEnd rc f s) := by
  have hf : ((s.setFpscr f).record1 rc).fpscr = f := by rw [State.record1_frame]; rfl
  refine does_fpComplete (.of_fpscr (by rw [State.record1_frame]; rfl) ?_ ?_)
  · rw [hf]; exact h
  · rw [hf]; exact fun _ => .inr

theorem does_fpCompare (ordered : Bool) (bf : BitVec 3) (a b : DWord) : Does i s (fpCompare ordered bf a b s) := by
  refine does_fpGuard _ (does_fpComplete (.of_fpscr rfl (fpEndStatus_summaries _ _) fun hs hx => ?_))
  rw [bitAt_fex_of_summaries hs]
  exact (fpCompare_sound s.fpscr ordered a b).pending ((fpEndStatus_fex _ _).symm.trans hx)

theorem does_mcrfs (bf bfa : BitVec 3) : Does i s (execMcrfs bf bfa s) := by
  refine does_finish (.of_fpscr rfl (fpscrSummed_summaries _) fun hs hx => .inl ?_)
  rw [bitAt_fex_of_summaries hs]
  exact fpscrFex_of_clear ((fpscrSummed_bit _ (show 1 < 32 by decide)).symm.trans hx)

end

end Sys2Proof.Machine
end

section
/-!
PROOFS, family 10_state.md.  Every instruction is within `Effect`.
-/
namespace Sys2Proof.Machine

/-! ### Every instruction -/

theorem does_execLmw (i : Instr) (rt ra : RegNum) (d : BitVec 16) (s : State) : Does i s (execLmw rt ra d s) :=
  does_ite (does_raise _)
    (does_checkedMultiple _ _ _ _ _ (does_finish_frame (by rw [State.loadWords_frame])))

theorem does_execLswi (i : Instr) (rt ra : RegNum) (nb : BitVec 5) (s : State) : Does i s (execLswi rt ra nb s) :=
  does_ite (does_raise _)
    (does_checkedMultiple _ _ _ _ _ (does_finish_frame (by rw [State.loadStringInto_frame])))

theorem does_execLswx (i : Instr) (rt ra rb : RegNum) (s : State) : Does i s (execLswx rt ra rb s) :=
  does_ite (does_raise _)
    (does_checkedMultiple _ _ _ _ _
      (does_ite (does_finish_frame rfl) (does_finish_frame (by rw [State.loadStringInto_frame]))))

theorem does_execStmw (i : Instr) (rs ra : RegNum) (d : BitVec 16) (s : State) : Does i s (execStmw rs ra d s) :=
  does_checkedMultiple _ _ _ _ _ (does_finish (s.keeps_storeWords _ _ _))

theorem does_execStswi (i : Instr) (rs ra : RegNum) (nb : BitVec 5) (s : State) : Does i s (execStswi rs ra nb s) :=
  does_checkedMultiple _ _ _ _ _ (does_finish (s.keeps_storeString _ _ _ _))

theorem does_execStswx (i : Instr) (rs ra rb : RegNum) (s : State) : Does i s (execStswx rs ra rb s) :=
  does_checkedMultiple _ _ _ _ _ (does_finish (s.keeps_storeString _ _ _ _))

theorem does_execMtspr (rs : RegNum) (spr : BitVec 10) (s : State) : Does (.mtspr rs spr) s (execMtspr rs spr s) := by
  unfold execMtspr
  split
  · rename_i h; subst h; exact does_next (.mtxer rs s _)
  · split
    · rename_i h; subst h; exact does_next (.mtlr rs s _)
    · split
      · rename_i h; subst h; exact does_next (.mtctr rs s _)
      · exact does_raise _

theorem does_execMfspr (i : Instr) (rt : RegNum) (spr : BitVec 10) (s : State) : Does i s (execMfspr rt spr s) :=
  does_ite (does_finish_frame rfl)
    (does_ite (does_finish_frame rfl) (does_ite (does_finish_frame rfl) (does_raise _)))

theorem does_execMtocrf (i : Instr) (rs : RegNum) (fxm : BitVec 8) (s : State) : Does i s (execMtocrf rs fxm s) := by
  refine does_ite (does_raise _) ?_
  split
  · exact does_finish_frame rfl
  · exact does_finish_frame rfl

theorem does_execMfocrf (i : Instr) (rt : RegNum) (fxm : BitVec 8) (s : State) : Does i s (execMfocrf rt fxm s) := by
  refine does_ite (does_raise _) ?_
  split
  · exact does_finish_frame rfl
  · exact does_finish_frame rfl

theorem does_execMcrxr (bf : BitVec 3) (s : State) : Does (.mcrxr bf) s (execMcrxr bf s) :=
  does_ite (does_raise _) (does_next (.mcrxr bf s _ _ _))

theorem does_execMffs (i : Instr) (frt : RegNum) (rc : Bool) (s : State) : Does i s (execMffs frt rc s) :=
  does_finish_frame (by rw [State.record1_frame]; rfl)

theorem does_execFsel (i : Instr) (frt fra frb frc : RegNum) (rc : Bool) (s : State) :
    Does i s (execFsel frt fra frb frc rc s) :=
  does_ite (does_raise _) (does_finish_frame (by rw [State.record1_frame]; rfl))

theorem does_execFrsp (i : Instr) (frt frb : RegNum) (rc : Bool) (s : State) : Does i s (execFrsp frt frb rc s) :=
  does_fpGuard _ (fpRun_computes frt true rc s fun f u => fpRoundSingle_sound f (drawnBit u) (s.fprOf frb)).does

/-- Every instruction, on every state, is refused or within `Effect`. -/
theorem exec_does (i : Instr) (s : State) : Does i s (exec i s) := by
  cases i with
  | addi | addis | mulli | crand | cror | crxor | crnand | crnor | creqv | crandc | crorc | mcrf | mtcrf | mfcr | cmpi
  | cmp | cmpli | cmpl => exact does_finish_frame rfl
  | add | subf | addic | addicRec | subfic | addc | subfc | adde | subfe | addme | subfme | addze | subfze | neg =>
    exact does_addLike ..
  | mulld | mullw => exact does_multiplyLow ..
  | mulhd | mulhdu => exact does_writeResult _ _ _ (.refl s)
  | mulhw | mulhwu => exact does_writeWordResult _ _ _ (.refl s)
  | divd | divdu => exact does_ite (does_divideUndefined ..) (does_writeResult _ _ _ (s.keeps_overflow _ _))
  | divw | divwu => exact does_ite (does_divideUndefined ..) (does_writeWordResult _ _ _ (s.keeps_overflow _ _))
  | tdi | twi | td | tw => exact does_trapTest ..
  | andiRec | andisRec | ori | oris | xori | xoris | and | or | xor | nand | nor | eqv | andc | orc | extsb | extsh | extsw
  | cntlzd | cntlzw | popcntb | rldicl | rldicr | rldic | rlwinm | rldcl | rldcr | rlwnm | rldimi | rlwimi | sld | slw
  | srd | srw => exact does_writeResult _ _ _ (.refl s)
  | sradi | srawi | srad | sraw => exact does_shiftAlgebraic ..
  | lbz | lbzx | lhz | lhzx | lha | lhax | lwz | lwzx | lwa | lwax | ld | ldx | lhbrx | lwbrx => exact does_loadInto ..
  | lbzu | lbzux | lhzu | lhzux | lhau | lhaux | lwzu | lwzux | lwaux | ldu | ldux => exact does_loadUpdate ..
  | stb | stbx | sth | sthx | stw | stwx | std | stdx | sthbrx | stwbrx | stfd | stfdx => exact does_storeFrom ..
  | stbu | stbux | sthu | sthux | stwu | stwux | stdu | stdux | stfdu | stfdux => exact does_storeUpdate ..
  | lmw => exact does_execLmw ..
  | lswi => exact does_execLswi ..
  | lswx => exact does_execLswx ..
  | stmw => exact does_execStmw ..
  | stswi => exact does_execStswi ..
  | stswx => exact does_execStswx ..
  | b li aa lk => exact does_next_eq (branchTo_branched ..) (.b ..)
  | bc bo bi bd aa lk => exact does_next_eq (branchTo_countDown ..) (.bc ..)
  | bclr bo bi bh lk => exact does_next_eq (branchTo_countDown ..) (.bclr ..)
  | bcctr bo bi bh lk => exact does_ite (does_raise _) (does_next_eq (branchTo_branched ..) (.bcctr ..))
  | sc => exact does_ite (does_raise _) (does_raise _)
  | mtspr rs spr => exact does_execMtspr rs spr s
  | mfspr => exact does_execMfspr ..
  | mtocrf => exact does_execMtocrf ..
  | mfocrf => exact does_execMfocrf ..
  | mcrxr bf => exact does_execMcrxr bf s
  | lfs | lfsx | lfd | lfdx => exact does_fpLoad ..
  | lfsu | lfsux | lfdu | lfdux => exact does_fpLoadUpdate ..
  | stfs | stfsx | stfiwx => exact does_fpStore ..
  | stfsu | stfsux => exact does_fpStoreUpdate ..
  | fmr | fneg | fabs | fnabs => exact does_fpMove ..
  | mffs => exact does_execMffs ..
  | mcrfs => exact does_mcrfs ..
  | mtfsfi | mtfsf | mtfsb0 => exact does_fpMoveEnd _ (fpWrite_summaries _ _ _)
  | mtfsb1 => exact does_fpMoveEnd _ (fpEndStatus_summaries _ _)
  | fadd | fsub => exact does_fpDouble _ _ fun f u => fpAdd_sound _ f _ _ _ _
  | fmul => exact does_fpDouble _ _ fun f u => fpMul_sound _ f _ _ _
  | fdiv => exact does_fpDouble _ _ fun f u => fpDiv_sound _ f _ _ _
  | fmadd | fmsub | fnmadd | fnmsub => exact does_fpDouble _ _ fun f u => fpMAdd_sound _ f _ _ _ _ _ _
  | fadds | fsubs => exact does_fpSingle _ _ _ (by decide) fun f u => fpAdd_sound _ f _ _ _ _
  | fmuls => exact does_fpSingle _ _ _ (by decide) fun f u => fpMul_sound _ f _ _ _
  | fdivs => exact does_fpSingle _ _ _ (by decide) fun f u => fpDiv_sound _ f _ _ _
  | fmadds | fmsubs | fnmadds | fnmsubs =>
    exact does_fpSingle _ _ _ (by decide) fun f u => fpMAdd_sound _ f _ _ _ _ _ _
  | frsp => exact does_execFrsp ..
  | fctid | fctidz | fctiw | fctiwz => exact does_fpDouble _ _ fun f u => fpToInt_sound f _ _ _ _
  | fcfid => exact does_fpDouble _ _ fun f u => fpFromInt_sound f _
  | fcmpu | fcmpo => exact does_fpCompare ..
  | fsqrt => exact does_ite (does_raise _) (does_fpDouble _ _ fun f u => fpSqrt_sound _ f _ _)
  | fsqrts => exact does_ite (does_raise _) (does_fpSingle _ _ _ (by decide) fun f u => fpSqrt_sound _ f _ _)
  | fre | frsqrte => exact does_ite (does_raise _) (does_fpGuard _ (fpEstimateRun_computes ..).does)
  | fres | frsqrtes =>
    exact does_ite (does_raise _) (does_fpGuard _ (fpSingleEstimate_computes _ _ _ _ s (by decide)).does)
  | fsel => exact does_execFsel ..

theorem effect_of_exec {i : Instr} {s t : State} (h : exec i s = .next t) : Effect i s t := (exec_does i s).effect t h

end Sys2Proof.Machine
end

section
/-!
PROOFS, family 10_state.md.  The invariant, the next instruction address, SO, LR and CTR, from `Effect`; the reset state and the
refusal in non-IEEE mode.
-/
namespace Sys2Proof.Machine

/-! ## Consequences of `Effect` -/

section
variable {s m : State} {caused : Bool}

theorem State.Keeps.env (h : s.Keeps m caused) : m.env = s.env := by rw [h.frame]
theorem State.Keeps.lr (h : s.Keeps m caused) : m.lr = s.lr := by rw [h.frame]
theorem State.Keeps.ctr (h : s.Keeps m caused) : m.ctr = s.ctr := by rw [h.frame]
theorem State.Keeps.begun (h : s.Keeps m caused) : m.begun = s.begun := by rw [h.frame]

theorem State.Keeps.nextPc (h : s.Keeps m caused) : m.nextPc = s.nextPc := by rw [h.frame]; rfl

theorem State.Keeps.fpTrapsOn (h : s.Keeps m caused) : m.fpTrapsOn = s.fpTrapsOn := by
  rw [State.fpTrapsOn, State.fpTrapsOn, h.env]

/-- A state in which no instruction has an event open meets an enabled exception only by causing it. -/
theorem State.Keeps.noPending (h : s.Keeps m caused) (hs : FpscrSummaries s.fpscr)
    (hp : (bitAt s.fpscr 1 && s.fpTrapsOn) = false) (he : m.enabledEvent caused = none) :
    (bitAt m.fpscr 1 && m.fpTrapsOn) = false := by
  rw [h.fpTrapsOn]
  cases ht : s.fpTrapsOn
  · rw [Bool.and_false]
  · rw [ht, Bool.and_true] at hp
    have hc : caused = false := by
      cases caused
      · rfl
      · simp [State.enabledEvent, h.fpTrapsOn, ht] at he
    rw [Bool.and_true, Bool.eq_false_iff]
    intro hm
    have hr := h.pending hs hm
    rw [hp, hc] at hr
    simp at hr

end

theorem bitAt_low_constants :
    (∀ i, i < 64 → bitAt (3 : DWord) i = decide (62 ≤ i)) ∧
      ∀ i, i < 64 → bitAt (0xFFFFFFFF : DWord) i = decide (32 ≤ i) := by
  decide

/-- An instruction address, field by field: the low two bits are 0, and in 32-bit mode the high-order 32 (10_state.md R43). -/
theorem State.iea_fields (s : State) (a : DWord) :
    s.iea a = if s.env.mode64 then fld a 0 62 ++ (0 : BitVec 2)
      else (0 : BitVec 32) ++ fld a 32 30 ++ (0 : BitVec 2) := by
  obtain ⟨three, word⟩ := bitAt_low_constants
  have low : ∀ i, 62 ≤ i → i < 64 → bitAt (s.iea a) i = false := fun i h hi => by
    rw [State.iea, bitAt_and, bitAt_not _ hi, three i hi, decide_eq_true h, Bool.not_true, Bool.and_false]
  have high : ∀ i, i < 62 → bitAt (s.iea a) i = bitAt (s.trunc a) i := fun i hi => by
    rw [State.iea, bitAt_and, bitAt_not _ (by omega), three i (by omega), decide_eq_false (by omega), Bool.not_false,
      Bool.and_true]
  apply eq_of_bitAt_eq
  intro i hi
  by_cases h : i < 62
  · rw [high i h, State.trunc]
    split
    · rw [bitAt_append_left _ _ h, bitAt_fld _ h (by decide), Nat.zero_add]
    · rw [bitAt_append_left _ _ h, bitAt_and, word i hi]
      by_cases h' : i < 32
      · rw [bitAt_append_left _ _ h', bitAt_zero, decide_eq_false (by omega), Bool.and_false]
      · rw [bitAt_append_right _ _ (by omega) h, bitAt_fld _ (by omega) (by decide), decide_eq_true (by omega),
          Bool.and_true]
        congr 1
        omega
  · rw [low i (by omega) hi]
    split
    · rw [bitAt_append_right _ _ (by omega) (by omega), bitAt_zero]
    · rw [bitAt_append_right _ _ (by omega) (by omega), bitAt_zero]

theorem State.nextPc_aligned (s : State) : s.nextPc = s.iea s.nextPc := (s.iea_iea _).symm

/-- Raising keeps the invariant. -/
theorem State.Inv.raised {s : State} (h : s.Inv) (e : Event) : State.Inv { s with event := some e } :=
  { h with noPending := fun he => nomatch he }

/-- So does the bookkeeping of a step: the run has begun, and the word is kept. -/
theorem State.Inv.started {s : State} (h : s.Inv) (w : Word) : (s.inRun.setInsn w).Inv :=
  { h with fresh := fun hf => nomatch hf }

section
variable {i : Instr} {s t : State}

theorem Effect.env (h : Effect i s t) : t.env = s.env := by
  cases h with
  | completes _ h => exact h.env
  | raises | b | bc | bclr | bcctr | mtxer | mtlr | mtctr | mcrxr => rfl

/-- Every instruction keeps the invariant. -/
theorem Effect.inv (h : Effect i s t) (hi : s.Inv) (he : s.event = none) (hb : s.begun = true) : t.Inv := by
  have hi' := hi
  obtain ⟨memory, stored, pcAligned, summaries, noPending, order, fresh⟩ := hi
  cases h with
  | raises _ _ e => exact hi'.raised e
  | @completes _ _ m c h =>
    refine ⟨h.memory memory, h.stored stored, m.nextPc_aligned, h.summaries summaries, ?_, ?_, ?_⟩
    · exact h.noPending summaries (noPending he)
    · show m.env.le = true → m.env.hasLittleEndian = true
      rw [h.env]; exact order
    · exact fun hf => absurd (h.begun.symm.trans hf) (by rw [hb]; decide)
  | b | bc | bclr | bcctr => exact ⟨memory, stored, (s.iea_iea _).symm, summaries, noPending, order, fresh⟩
  | mtxer | mtlr | mtctr | mcrxr => exact ⟨memory, stored, s.nextPc_aligned, summaries, noPending, order, fresh⟩

end

/-! ## Steps -/

/-- Everything a step with a next state can do. -/
theorem step_cases {s t : State} (h : step s = .next t) : s.event = none ∧
    (t = { s.inRun with event := some (.instructionStorage s.pc) } ∨ stepWord s.fetchWord s.inRun = .next t) := by
  unfold step at h
  split at h
  · cases h
  · rename_i he
    refine ⟨by simpa using he, ?_⟩
    split at h
    · cases h
    · split at h
      · cases h; exact .inl rfl
      · split at h
        · cases h
        · exact .inr h

theorem stepWord_cases {w : Word} {s t : State} (h : stepWord w s = .next t) :
    (∃ i, exec i (s.setInsn w) = .next t) ∨ raiseIllegal (s.setInsn w) = .next t := by
  unfold stepWord at h
  split at h
  · exact .inl ⟨_, h⟩
  · cases h
  · exact .inr h

/-- Settles O6: a step either raises and changes nothing else or is an `Effect`. -/
theorem stepKeepsInvariant : Obligations.StepKeepsInvariant := by
  intro s t hi h
  obtain ⟨he, rfl | hw⟩ := step_cases h
  · exact ⟨(hi.started s.insn).raised _, rfl⟩
  · have hr := hi.started s.fetchWord
    obtain ⟨i, hx⟩ | hx := stepWord_cases hw
    · exact ⟨(effect_of_exec hx).inv hr he rfl, (effect_of_exec hx).env⟩
    · cases hx
      exact ⟨hr.raised _, rfl⟩

/-- Settles O8: a raising execution is excluded, the branches are too, and everything else ends at the next address. -/
theorem nonBranchesAdvance : Obligations.NonBranchesAdvance := by
  intro i s t h _ ht hb hbc hbclr hbcctr
  have hpc : t.pc = s.nextPc := by
    cases effect_of_exec h with
    | raises => cases ht
    | completes _ hk => exact hk.nextPc
    | b li aa lk => exact absurd rfl (hb li aa lk)
    | bc bo bi bd aa lk => exact absurd rfl (hbc bo bi bd aa lk)
    | bclr bo bi bh lk => exact absurd rfl (hbclr bo bi bh lk)
    | bcctr bo bi bh lk => exact absurd rfl (hbcctr bo bi bh lk)
    | mtxer | mtlr | mtctr | mcrxr => rfl
  rw [hpc]
  exact s.iea_fields (s.pc + 4)

/-- Settles O9: outside mtspr and mcrxr, XER is left alone or written with SO sticky. -/
theorem summaryOverflowIsSticky : Obligations.SummaryOverflowIsSticky := by
  intro i s t h hs hmt hmc
  cases effect_of_exec h with
  | raises | b | bc | bclr | bcctr => exact hs
  | completes _ hk => exact hk.sticky hs
  | mtxer rs | mtlr rs | mtctr rs => exact absurd rfl (hmt rs _)
  | mcrxr bf => exact absurd rfl (hmc bf)

/-- A branch with LK = 0 leaves LR, one that does not count leaves CTR. -/
theorem State.branched_link_count (s : State) (lk counts : Bool) (a : DWord) :
    (lk = false → (s.branched lk counts a).lr = s.lr) ∧ (counts = false → (s.branched lk counts a).ctr = s.ctr) :=
  ⟨by rintro rfl; rfl, by rintro rfl; rfl⟩

/-- Settles O10: an instruction that completes leaves LR and CTR; a branch writes them as LK and BO[2] say, mtspr as its
number says. -/
theorem linkAndCountWriters : Obligations.LinkAndCountWriters := by
  intro i s t h
  constructor
  · intro hb hbc hbclr hbcctr hmt
    cases effect_of_exec h with
    | raises | mtxer | mtctr | mcrxr => rfl
    | completes _ hk => exact hk.lr
    | b li aa lk _ a =>
      exact (s.branched_link_count lk _ a).1 (Bool.eq_false_iff.mpr fun e => hb li aa (by rw [e]))
    | bc bo bi bd aa lk _ a =>
      exact (s.branched_link_count lk _ a).1 (Bool.eq_false_iff.mpr fun e => hbc bo bi bd aa (by rw [e]))
    | bclr bo bi bh lk _ a =>
      exact (s.branched_link_count lk _ a).1 (Bool.eq_false_iff.mpr fun e => hbclr bo bi bh (by rw [e]))
    | bcctr bo bi bh lk _ a =>
      exact (s.branched_link_count lk _ a).1 (Bool.eq_false_iff.mpr fun e => hbcctr bo bi bh (by rw [e]))
    | mtlr rs => exact absurd rfl (hmt rs)
  · intro hbc hbclr hmt
    cases effect_of_exec h with
    | raises | mtxer | mtlr | mcrxr | b | bcctr => rfl
    | completes _ hk => exact hk.ctr
    | bc bo bi bd aa lk _ a =>
      exact (s.branched_link_count lk _ a).2 (by rw [hbc bo bi bd aa lk rfl, Bool.not_true])
    | bclr bo bi bh lk _ a =>
      exact (s.branched_link_count lk _ a).2 (by rw [hbclr bo bi bh lk rfl, Bool.not_true])
    | mtctr rs => exact absurd rfl (hmt rs)

/-- Settles O5: every field of the reset state is concrete. -/
theorem resetSatisfiesInvariant : Obligations.ResetSatisfiesInvariant := by
  have summaries : FpscrSummaries State.reset.fpscr := ⟨by decide, by decide⟩
  exact ⟨⟨State.reset_mem_wf, State.reset_stored_wf, by decide, summaries, fun _ => rfl, (fun h => nomatch h),
    fun _ => rfl⟩, rfl⟩

section
variable {s : State} (hn : s.env.hasNiMode = true) (hb : bitAt s.fpscr 29 = true)
include hn hb

theorem fpDouble_of_nonIeee (frt : RegNum) (rc : Bool) (o : Word → DWord → FpOutcome) :
    fpDouble frt rc o s = .refused .nonIeeeMode :=
  fpGuard_of_nonIeee hn hb _

theorem fpSingle_of_nonIeee (frt : RegNum) (rc : Bool) (operands : List DWord) (mask : Word)
    (o : Word → DWord → FpOutcome) : fpSingle frt rc operands mask o s = .refused .nonIeeeMode :=
  fpGuard_of_nonIeee hn hb _

theorem execFrsp_of_nonIeee (frt frb : RegNum) (rc : Bool) : execFrsp frt frb rc s = .refused .nonIeeeMode :=
  fpGuard_of_nonIeee hn hb _

theorem fpCompare_of_nonIeee (ordered : Bool) (bf : BitVec 3) (a b : DWord) :
    fpCompare ordered bf a b s = .refused .nonIeeeMode :=
  fpGuard_of_nonIeee hn hb _

end

/-- A provided facility's instruction is not illegal. -/
theorem ite_not_provided {c : Bool} (h : c = true) (a b : Res) : (if !c then a else b) = b := by
  subst h
  rfl

/-- Settles O60: every computational instruction, once it is provided, goes through the guard. -/
theorem nonIeeeModeRefused : Obligations.NonIeeeModeRefused := by
  intro s frt fra frb frc bf rc hn hb refused
  have double : ∀ o, refused (fpDouble frt rc o s) := fpDouble_of_nonIeee hn hb frt rc
  have single : ∀ l m o, refused (fpSingle frt rc l m o s) := fpSingle_of_nonIeee hn hb frt rc
  have compare : ∀ ordered, refused (fpCompare ordered bf (s.fprOf fra) (s.fprOf frb) s) := fun ordered =>
    fpCompare_of_nonIeee hn hb ordered bf _ _
  have optional : ∀ (c : Bool) (a : Res) (k : Unit → Res), c = true → refused (if !c then a else fpGuard s k) :=
    fun c a k hc => (ite_not_provided hc a _).trans (fpGuard_of_nonIeee hn hb k)
  refine ⟨double _, single _ _ _, double _, single _ _ _, double _, single _ _ _, double _, single _ _ _, double _,
    single _ _ _, double _, single _ _ _, double _, single _ _ _, double _, single _ _ _,
    execFrsp_of_nonIeee hn hb frt frb rc, double _, double _, double _, double _, double _, compare false, compare true,
    fun hg => ⟨?_, ?_⟩, fun hg => ⟨?_, ?_, ?_, ?_⟩⟩
  all_goals exact optional _ (raiseIllegal s) _ hg

end Sys2Proof.Machine
end

section
/-!
PROOFS, family 10_state.md.  The computational instructions complete (O43).
-/
namespace Sys2Proof.Machine

/-! ## The computational instructions complete -/

section
variable {s : State} (hs : s.Ieee)
include hs

theorem fpDouble_computes (frt : RegNum) (rc : Bool) {o : Word → DWord → FpOutcome} (h : ∀ f u, (o f u).Sound f) :
    Computes (fpDouble frt rc o s) s frt rc := by
  rw [fpDouble, fpGuard_of_ieee _ hs]
  exact fpRun_computes frt false rc s h

theorem fpSingle_computes (frt : RegNum) (rc : Bool) (operands : List DWord) {mask : Word} {o : Word → DWord → FpOutcome}
    (hm : BitsWithin fpStatusBits mask) (h : ∀ f u, (o f u).Sound f) :
    Computes (fpSingle frt rc operands mask o s) s frt rc := by
  rw [fpSingle, fpGuard_of_ieee _ hs]
  exact fpSingleBody_computes frt rc operands s hm h

theorem execFrsp_computes (frt frb : RegNum) (rc : Bool) : Computes (execFrsp frt frb rc s) s frt rc := by
  rw [execFrsp, fpGuard_of_ieee _ hs]
  exact fpRun_computes frt true rc s fun f u => fpRoundSingle_sound f (drawnBit u) (s.fprOf frb)

theorem execFsqrt_computes (hg : s.env.hasFpGeneral = true) (frt frb : RegNum) (rc : Bool) :
    Computes (execFsqrt frt frb rc s) s frt rc ∧ Computes (execFsqrts frt frb rc s) s frt rc := by
  rw [execFsqrt, execFsqrts, ite_not_provided hg, ite_not_provided hg]
  exact ⟨fpDouble_computes hs frt rc fun f u => fpSqrt_sound .dp f (drawnBit u) (s.fprOf frb),
    fpSingle_computes hs frt rc _ (by decide) fun f u => fpSqrt_sound .sp f (drawnBit u) (s.fprOf frb)⟩

theorem execEstimate_computes (hg : s.env.hasFpGraphics = true) (frt frb : RegNum) (rc : Bool) :
    Computes (execFre frt frb rc s) s frt rc ∧ Computes (execFres frt frb rc s) s frt rc ∧
      Computes (execFrsqrte frt frb rc s) s frt rc ∧ Computes (execFrsqrtes frt frb rc s) s frt rc := by
  rw [execFre, execFres, execFrsqrte, execFrsqrtes, ite_not_provided hg, ite_not_provided hg, ite_not_provided hg,
    ite_not_provided hg, fpGuard_of_ieee _ hs, fpGuard_of_ieee _ hs, fpGuard_of_ieee _ hs, fpGuard_of_ieee _ hs]
  exact ⟨fpEstimateRun_computes .dp false false frt frb rc s, fpSingleEstimate_computes false frt frb rc s (by decide),
    fpEstimateRun_computes .dp false true frt frb rc s, fpSingleEstimate_computes true frt frb rc s (by decide)⟩

end

/-- A field of the FPSCR whose bits are all kept. -/
theorem fld_eq_of_bits {w : Nat} {f g : BitVec w} {start len : Nat} (hl : start + len ≤ w)
    (h : ∀ i, start ≤ i → i < start + len → bitAt g i = bitAt f i) : fld g start len = fld f start len := by
  apply eq_of_bitAt_eq
  intro i hi
  rw [bitAt_fld g hi hl, bitAt_fld f hi hl, h _ (by omega) (by omega)]

/-- The event of an instruction that caused an enabled exception, or not. -/
theorem State.enabledEvent_cases (s : State) (caused : Bool) :
    s.enabledEvent caused = s.event ∨
      caused = true ∧ s.fpTrapsOn = true ∧ s.enabledEvent caused = some (.floatingPointEnabled s.pc s.insn) := by
  unfold State.enabledEvent
  cases caused
  · exact .inl rfl
  · cases s.fpTrapsOn
    · exact .inl rfl
    · exact .inr ⟨rfl, rfl, rfl⟩

theorem State.Computed.controlFields {s m : State} {frt : RegNum} {rc caused : Bool} (h : s.Computed m frt rc caused) :
    fld m.fpscr 20 2 = fld s.fpscr 20 2 ∧ fld m.fpscr 24 8 = fld s.fpscr 24 8 :=
  ⟨fld_eq_of_bits (by decide) fun i _ _ => h.controls i (by omega) (by omega),
    fld_eq_of_bits (by decide) fun i _ _ => h.controls i (by omega) (by omega)⟩

/-- The only event of a computational instruction is its own enabled exception, FEX being 1. -/
theorem State.Computed.event_cases {s m : State} {frt : RegNum} {rc caused : Bool} (h : s.Computed m frt rc caused) :
    m.enabledEvent caused = s.event ∨ bitAt m.fpscr 1 = true ∧ s.fpTrapsOn = true ∧
      m.enabledEvent caused = some (.floatingPointEnabled s.pc s.insn) := by
  have he : m.enabledEvent caused = s.enabledEvent caused := by rw [h.frame]; rfl
  rw [he]
  exact (s.enabledEvent_cases caused).imp_right fun ⟨hc, ht, hs⟩ => ⟨h.enabled hc, ht, hs⟩

/-- Settles O43: every form computes a sound outcome or, with an unrepresentable operand, an undefined one in the same frame. -/
theorem computationalInstructionsComplete : Obligations.ComputationalInstructionsComplete := by
  intro s frt fra frb frc rc hs completes
  have done : ∀ {res}, Computes res s frt rc → completes res := by
    rintro _ ⟨m, c, rfl, h⟩
    have bytes : s.SameBytes m := State.byteAt_congr (by rw [h.frame]) (by rw [h.frame])
    exact ⟨_, fpComplete_eq c m, h.others, h.record, h.summaries, h.controlFields.1, h.controlFields.2, bytes,
      h.event_cases, by rw [h.frame]; rfl⟩
  have double : ∀ {o}, (∀ f u, (o f u).Sound f) → completes (fpDouble frt rc o s) := fun h =>
    done (fpDouble_computes hs frt rc h)
  have single : ∀ {l m o}, BitsWithin fpStatusBits m → (∀ f u, (o f u).Sound f) → completes (fpSingle frt rc l m o s) :=
    fun hm h => done (fpSingle_computes hs frt rc _ hm h)
  exact ⟨double fun f u => fpAdd_sound _ f _ _ _ _, single (by decide) fun f u => fpAdd_sound _ f _ _ _ _,
    double fun f u => fpAdd_sound _ f _ _ _ _, single (by decide) fun f u => fpAdd_sound _ f _ _ _ _,
    double fun f u => fpMul_sound _ f _ _ _, single (by decide) fun f u => fpMul_sound _ f _ _ _,
    double fun f u => fpDiv_sound _ f _ _ _, single (by decide) fun f u => fpDiv_sound _ f _ _ _,
    double fun f u => fpMAdd_sound _ f _ _ _ _ _ _, single (by decide) fun f u => fpMAdd_sound _ f _ _ _ _ _ _,
    double fun f u => fpMAdd_sound _ f _ _ _ _ _ _, single (by decide) fun f u => fpMAdd_sound _ f _ _ _ _ _ _,
    double fun f u => fpMAdd_sound _ f _ _ _ _ _ _, single (by decide) fun f u => fpMAdd_sound _ f _ _ _ _ _ _,
    double fun f u => fpMAdd_sound _ f _ _ _ _ _ _, single (by decide) fun f u => fpMAdd_sound _ f _ _ _ _ _ _,
    done (execFrsp_computes hs frt frb rc), double fun f u => fpToInt_sound f _ _ _ _,
    double fun f u => fpToInt_sound f _ _ _ _, double fun f u => fpToInt_sound f _ _ _ _,
    double fun f u => fpToInt_sound f _ _ _ _, double fun f _ => fpFromInt_sound f _,
    fun hg => (execFsqrt_computes hs hg frt frb rc).imp done done,
    fun hg => (execEstimate_computes hs hg frt frb rc).imp done (.imp done (.imp done done))⟩

end Sys2Proof.Machine
end

section
/-!
PROOFS, family 10_state.md.  Adds, subtracts and negate (O14).
-/
namespace Sys2Proof.Machine

/-! ## Adds and subtracts (43_fx_arith.md R331) -/

theorem addWithCarry_toNat (a b : DWord) (c : BitVec 1) :
    (addWithCarry a b c).toNat = (a.toNat + b.toNat + c.toNat) % 2 ^ 64 := by
  have hc : c.toNat < 2 := c.isLt
  simp only [addWithCarry, zext64, BitVec.toNat_add, BitVec.toNat_setWidth]
  omega

theorem lowWord_toNat (a : DWord) : (lowWord a).toNat = a.toNat % 2 ^ 32 := BitVec.toNat_setWidth ..

theorem carryOut_eq (s : State) (a b : DWord) (c : BitVec 1) :
    carryOut s.env.mode64 a b c = s.sumCarries a b c.toNat := by
  unfold carryOut State.sumCarries
  rw [lowWord_toNat, lowWord_toNat]

/-- The sign bit of the mode's width. -/
theorem bitAt_sign (x : DWord) : bitAt x 0 = decide (2 ^ 63 ≤ x.toNat) ∧ bitAt x 32 = decide (2 ^ 31 ≤ x.toNat % 2 ^ 32) := by
  constructor
  · exact BitVec.msb_eq_decide x
  · rw [← lowWord_toNat, ← BitVec.msb_eq_decide (lowWord x)]
    simp [bitAt, lowWord, BitVec.msb, BitVec.getMsbD]

/-- Overflow as the change of sign of two summands of one sign, and as the signed sum out of range. -/
theorem overflowOut_eq (s : State) (a b : DWord) (c : BitVec 1) :
    overflowOut s.env.mode64 a b c = s.sumOverflows a b c.toNat := by
  have hc : c.toNat < 2 := c.isLt
  have ha : a.toNat < 2 ^ 64 := a.isLt
  have hb : b.toNat < 2 ^ 64 := b.isLt
  unfold overflowOut State.sumOverflows
  cases s.env.mode64
  · simp only [Bool.false_eq_true, if_false, bitAt_sign, addWithCarry_toNat, BitVec.toInt_eq_toNat_cond, lowWord_toNat]
    rw [Bool.eq_iff_iff]
    simp only [Bool.and_eq_true, Bool.or_eq_true, beq_iff_eq, bne_iff_ne, ne_eq, decide_eq_decide, decide_eq_true_eq]
    omega
  · simp only [if_true, bitAt_sign, addWithCarry_toNat, BitVec.toInt_eq_toNat_cond]
    rw [Bool.eq_iff_iff]
    simp only [Bool.and_eq_true, Bool.or_eq_true, beq_iff_eq, bne_iff_ne, ne_eq, decide_eq_decide, decide_eq_true_eq]
    omega

/-- A GPR result where XER has been written: the target, CR Field 0 and pc, and nothing else. -/
theorem writeResult_setXer (r : RegNum) (v x : DWord) (rc : Bool) (s : State) :
    ∃ t, writeResult r v rc (s.setXer x) = .next t ∧ t.gprOf r = v ∧ s.Recorded t rc v ∧ t.xer = x ∧
      t.undef = s.undef ∧ s.FixedPoint t r :=
  writeResult_spec r v rc (s.setXer x)

theorem bitAt_xerFlags : ∀ i, i < 64 → bitAt (0xE0000000 : DWord) i = decide (32 ≤ i ∧ i ≤ 34) := by decide

theorem sameOutside_xerFlags {x y : DWord} (h : ∀ i, i < 64 → i ≠ 32 → i ≠ 33 → i ≠ 34 → bitAt y i = bitAt x i) :
    SameOutside 0xE0000000 x y := by
  rw [sameOutside_iff]
  intro i hi hm
  rw [bitAt_xerFlags i hi, decide_eq_false_iff_not] at hm
  exact h i hi (by omega) (by omega) (by omega)

/-- `SetOV` when OE = 1 leaves CA and everything outside the flags. -/
theorem State.overflow_rest (s : State) (oe ov : Bool) :
    (s.overflow oe ov).ca = s.ca ∧ SameOutside 0xE0000000 s.xer (s.overflow oe ov).xer := by
  obtain ⟨-, -, hca, hbits⟩ := s.setOv_spec ov
  cases oe
  · exact ⟨rfl, rfl⟩
  · exact ⟨hca, sameOutside_xerFlags fun i hi h1 h2 _ => hbits i hi h1 h2⟩

/-- `SetCA` when the instruction writes CA. -/
theorem State.setCaIf_spec (s : State) (ca c : Bool) :
    (if ca then s.setCa c else s) = s.setXer (if ca then s.setCa c else s).xer ∧
      (if ca then s.setCa c else s).ca = (if ca then c else s.ca) ∧
      (if ca then s.setCa c else s).ov = s.ov ∧ (if ca then s.setCa c else s).so = s.so ∧
      SameOutside 0xE0000000 s.xer (if ca then s.setCa c else s).xer := by
  obtain ⟨hca, hov, hso, hbits⟩ := s.setCa_spec c
  cases ca
  · exact ⟨rfl, rfl, rfl, rfl, rfl⟩
  · exact ⟨rfl, hca, hov, hso, sameOutside_xerFlags fun i hi _ _ h => hbits i hi h⟩

/-- The XER after the CA and then the OV and SO of an add: CA if `ca`, OV and SO if `oe`, and no other bit. -/
theorem State.addFlags_spec (s m : State) (ca oe c ov : Bool) (hm : m = (if ca then s.setCa c else s).overflow oe ov) :
    m = s.setXer m.xer ∧ m.ca = (if ca then c else s.ca) ∧ s.OverflowNoted m oe ov ∧
      SameOutside 0xE0000000 s.xer m.xer := by
  obtain ⟨hframe, hca, hov, hso, hout⟩ := s.setCaIf_spec ca c
  generalize (if ca then s.setCa c else s) = n at *
  obtain ⟨hrest, hout'⟩ := n.overflow_rest oe ov
  obtain ⟨hov', hso'⟩ := n.overflow_noted oe ov
  subst hm
  refine ⟨?_, hrest.trans hca, ⟨by rw [hov', hov], by rw [hso', hso]⟩, hout.trans hout'⟩
  rw [State.overflow_frame, hframe]
  rfl

theorem addLike_addsInto (rt : RegNum) (a b : DWord) (c : BitVec 1) (ca oe rc : Bool) (s : State) :
    AddsInto (addLike rt a b c ca oe rc s) s rt a b c.toNat ca oe rc := by
  obtain ⟨hm, hca, ⟨hov, hso⟩, hx⟩ :=
    s.addFlags_spec _ ca oe (carryOut s.env.mode64 a b c) (overflowOut s.env.mode64 a b c) rfl
  obtain ⟨t, ht, hv, hr, htx, hu, hf⟩ := writeResult_setXer rt (addWithCarry a b c) _ rc s
  refine ⟨t, (congrArg (writeResult rt _ rc) hm).trans ht, ?_, ?_, ⟨?_, ?_⟩, ?_, ?_, hu, hf⟩
  · rw [hv, addWithCarry_toNat]
  · rw [← carryOut_eq, ← hca, State.ca, htx]; rfl
  · rw [← overflowOut_eq, ← hov, State.ov, htx]; rfl
  · rw [← overflowOut_eq, ← hso, State.so, htx]; rfl
  · rw [htx]; exact hx
  · rw [hv]; exact hr

/-- addi and addis are adds that touch no flag. -/
theorem finish_setGpr_add (rt : RegNum) (a b : DWord) (s : State) :
    finish (s.setGpr rt (a + b)) = addLike rt a b 0 false false false s := by
  have h : addWithCarry a b 0 = a + b := by simp [addWithCarry, zext64]
  rw [← h]
  rfl

theorem State.caBit_toNat (s : State) : s.caBit.toNat = if s.ca then 1 else 0 := by
  unfold State.caBit
  cases s.ca <;> rfl

/-- Settles O14: all forms are `addLike`, the carry in being 0, 1 or CA. -/
theorem addSubtractResults : Obligations.AddSubtractResults := by
  intro s rt ra rb si oe rc a b c base
  have plain : ∀ x y, AddsInto (finish (s.setGpr rt (x + y))) s rt x y 0 false false false := fun x y => by
    rw [finish_setGpr_add]
    exact addLike_addsInto rt x y 0 false false false s
  have carry : ∀ x y, AddsInto (addLike rt x y s.caBit true oe rc s) s rt x y c true oe rc := fun x y => by
    have h := addLike_addsInto rt x y s.caBit true oe rc s
    rwa [s.caBit_toNat] at h
  exact ⟨plain _ _, plain _ _, addLike_addsInto .., addLike_addsInto .., addLike_addsInto .., addLike_addsInto ..,
    addLike_addsInto .., addLike_addsInto .., addLike_addsInto .., carry _ _, carry _ _, carry _ _, carry _ _, carry _ _,
    carry _ _, addLike_addsInto ..⟩

end Sys2Proof.Machine
end

section
/-!
PROOFS, family 10_state.md.  Moves of the special registers and the FPSCR instructions (O34, O41, O42).
-/
namespace Sys2Proof.Machine

/-! ## Special registers (46_fx_sysreg.md R481 to R483) -/

theorem bitAt_readReserved {w : Nat} (x r u : BitVec w) {i : Nat} (hi : i < w) :
    bitAt (readReserved x r u) i = (bitAt x i && (!bitAt r i || bitAt u i)) := by
  rw [readReserved, bitAt_and, bitAt_or, bitAt_not _ hi]

/-- A bit that holds 0 or is not reserved reads as it is. -/
theorem bitAt_readReserved_of {w : Nat} {x r : BitVec w} (u : BitVec w) {i : Nat} (hi : i < w)
    (h : bitAt x i = false ∨ bitAt r i = false) : bitAt (readReserved x r u) i = bitAt x i := by
  rw [bitAt_readReserved x r u hi]
  rcases h with h | h
  · rw [h, Bool.false_and]
  · rw [h, Bool.not_false, Bool.true_or, Bool.and_true]

theorem bitAt_xerReserved :
    ∀ i, i < 64 → bitAt xerReserved i = decide (i < 32 ∨ 35 ≤ i ∧ i ≤ 56) := by decide

/-- A completing move to a GPR. -/
theorem finish_setGpr_spec (r : RegNum) (v : DWord) (s : State) : WritesGpr (finish (s.setGpr r v)) s r v false :=
  writeResult_spec r v false s

theorem execMfspr_xer (r : RegNum) (s : State) :
    ∃ t, execMfspr r 1 s = .next t ∧ t.gprOf r = s.readXer ∧ t.cr = s.cr ∧ t.xer = s.xer ∧ s.FixedPoint t r :=
  ⟨(s.setGpr r s.readXer).drawn.advance, rfl, s.gprOf_setGpr_same r _, rfl, rfl,
    fun _ hq => s.gprOf_setGpr_other _ hq, fun _ => rfl, rfl, rfl⟩

/-- Settles O34: each SPR number has its own arm; XER is read through its reserved bits. -/
theorem specialRegisterResults : Obligations.SpecialRegisterResults := by
  intro s r spr
  obtain ⟨t, ht, hv, hcr, hxer, hf⟩ := execMfspr_xer r s
  refine ⟨rfl, rfl, rfl, finish_setGpr_spec r s.lr s, finish_setGpr_spec r s.ctr s, ⟨t, ht, ?_, ?_, hcr, hxer, hf⟩, ?_⟩
  · intro i hi h
    rw [hv]
    exact bitAt_readReserved_of _ hi (.inr (by rw [bitAt_xerReserved i hi]; exact decide_eq_false (by omega)))
  · intro i hi h
    rw [hv]
    exact (bitAt_readReserved_of _ hi (.inl h)).trans h
  · intro h1 h8 h9
    constructor
    · show execMtspr r spr s = _
      rw [execMtspr, if_neg h1, if_neg h8, if_neg h9]
      exact raiseIllegal_spec s
    · show execMfspr r spr s = _
      rw [execMfspr, if_neg h1, if_neg h8, if_neg h9]
      exact raiseIllegal_spec s

/-! ## FPSCR instructions (48_fp_instructions.md R655 to R661) -/

theorem bitAt_fpscrReserved (s : State) {i : Nat} (hi : i < 32) :
    bitAt s.fpscrReserved i = (i == 20 || (i == 29 && !s.env.hasNiMode)) := by
  rw [State.fpscrReserved, bitAt_or, bitAt_fpWhen, bitAt_fpBit hi (by decide), bitAt_fpBit hi (by decide),
    Bool.and_comm]
  rfl

theorem bitAt_fpFieldMask : ∀ (n : BitVec 3) (i : Nat), i < 32 → bitAt (fpFieldMask n) i = decide (i / 4 = n.toNat) := by
  decide

theorem bitAt_fxmRep (m : BitVec 8) (j : Nat) {k : Nat} (hk : k < 4) : bitAt (fxmMask.rep m j) k = bitAt m j := by
  have ones : ∀ k, k < 4 → bitAt (0b1111 : BitVec 4) k = true := by decide
  unfold fxmMask.rep
  cases bitAt m j
  · simp [bitAt]
  · exact ones k hk

/-- A mask of `k` fields with the next field appended. -/
theorem bitAt_fxmRep_append (m : BitVec 8) (k : Nat) (x : BitVec (4 * k))
    (h : ∀ i, i < 4 * k → bitAt x i = bitAt m (i / 4)) (i : Nat) (hi : i < 4 * k + 4) :
    bitAt (x ++ fxmMask.rep m k) i = bitAt m (i / 4) := by
  by_cases hk : i < 4 * k
  · rw [bitAt_append_left _ _ hk, h i hk]
  · rw [bitAt_append_right _ _ (by omega) hi, bitAt_fxmRep m k (by omega)]
    congr 1
    omega

theorem bitAt_fxmMask (m : BitVec 8) : ∀ i, i < 32 → bitAt (fxmMask m) i = bitAt m (i / 4) := by
  have next := bitAt_fxmRep_append m
  have first : ∀ i, i < 4 * 1 → bitAt (fxmMask.rep m 0) i = bitAt m (i / 4) := fun i hi => by
    rw [bitAt_fxmRep m 0 hi]
    congr 1
    omega
  exact next 7 _ (next 6 _ (next 5 _ (next 4 _ (next 3 _ (next 2 _ (next 1 _ first))))))

theorem bitAt_fpWritable : ∀ i, i < 32 → bitAt fpWritable i = decide (i ≠ 1 ∧ i ≠ 2) := by decide

theorem bitAt_fpExceptionBits :
    ∀ i, i < 32 → bitAt fpExceptionBits i = decide (3 ≤ i ∧ i ≤ 12 ∨ 21 ≤ i ∧ i ≤ 23) := by decide

theorem fpscrSummed_other (f : Word) {i : Nat} (hi : i < 32) (h1 : i ≠ 1) (h2 : i ≠ 2) :
    bitAt (fpscrSummed f) i = bitAt f i := by
  rw [fpscrSummed_bit f hi, if_neg h2, if_neg h1]

/-- A bit that a Move To FPSCR instruction writes or keeps. -/
theorem bitAt_fpWrite (f mask v : Word) {i : Nat} (hi : i < 32) (h1 : i ≠ 1) (h2 : i ≠ 2) :
    bitAt (fpWrite f mask v) i = if bitAt mask i then bitAt v i else bitAt f i := by
  rw [fpWrite, fpscrSummed_other _ hi h1 h2, bitAt_or, bitAt_and, bitAt_and, bitAt_not _ hi, bitAt_and,
    bitAt_fpWritable i hi, decide_eq_true ⟨h1, h2⟩, Bool.and_true]
  cases bitAt mask i
  · rw [Bool.not_false, Bool.and_true, Bool.and_false, Bool.or_false]; rfl
  · rw [Bool.not_true, Bool.and_false, Bool.and_true, Bool.false_or]; rfl

/-- A word is not 0 exactly where it has a bit. -/
theorem ne_zero_iff_bit {w : Nat} (x : BitVec w) : x ≠ 0 ↔ ∃ i, i < w ∧ bitAt x i = true := by
  constructor
  · intro h
    by_contra hn
    push Not at hn
    exact h (eq_of_bitAt_eq fun i hi => by rw [bitAt_zero, Bool.eq_false_iff]; exact hn i hi)
  · rintro ⟨i, -, h⟩ rfl
    rw [bitAt_zero] at h
    cases h

/-- FX after an instruction that sets exception bits: as it was written, or 1 if an exception bit went from 0 to 1. -/
theorem fpEndStatus_fx (old new : Word) : bitAt (fpEndStatus old new) 0 = true ↔ bitAt new 0 = true ∨
    ∃ i, i < 32 ∧ (3 ≤ i ∧ i ≤ 12 ∨ 21 ≤ i ∧ i ≤ 23) ∧ bitAt new i = true ∧ bitAt old i = false := by
  rw [fpEndStatus, fpscrSummed_other _ (by decide) (by decide) (by decide), bitAt_or, bitAt_fpWhen,
    bitAt_fpBit (by decide) (by decide), decide_eq_true rfl, Bool.and_true, Bool.or_eq_true, bne_iff_ne, ne_zero_iff_bit]
  refine or_congr_right (exists_congr fun i => and_congr_right fun hi => ?_)
  rw [bitAt_and, bitAt_and, bitAt_not _ hi, bitAt_fpExceptionBits i hi]
  simp only [Bool.and_eq_true, Bool.not_eq_true', decide_eq_true_eq]
  tauto

theorem bitAt_lowWord (x : DWord) (i : Nat) : bitAt (lowWord x) i = bitAt x (32 + i) := by
  have h : 32 - 1 - i = 64 - 1 - (32 + i) := by omega
  have h' : 64 - 1 - (32 + i) < 32 := by omega
  rw [bitAt, bitAt, h, lowWord, BitVec.getLsbD_setWidth, decide_eq_true h', Bool.true_and]

/-- FX after setting bit `b`: 1 if `b` is FX, or an exception bit that was 0, or if it was 1. -/
theorem fpEndStatus_setBit_fx (f new : Word) {b : Nat} (hb : b < 32)
    (hn : ∀ i, i < 32 → i ≠ 1 → i ≠ 2 → bitAt new i = if i = b then true else bitAt f i) :
    bitAt (fpEndStatus f new) 0 =
      if 0 = b then true
      else if ((3 ≤ b ∧ b ≤ 12) ∨ (21 ≤ b ∧ b ≤ 23)) ∧ bitAt f b = false then true else bitAt f 0 := by
  have raised : (∃ i, i < 32 ∧ (3 ≤ i ∧ i ≤ 12 ∨ 21 ≤ i ∧ i ≤ 23) ∧ bitAt new i = true ∧ bitAt f i = false) ↔
      ((3 ≤ b ∧ b ≤ 12) ∨ (21 ≤ b ∧ b ≤ 23)) ∧ bitAt f b = false := by
    constructor
    · rintro ⟨i, hi, hx, h1, h0⟩
      rw [hn i hi (by omega) (by omega), h0] at h1
      have hib : i = b := by by_contra hne; simp [hne] at h1
      exact hib ▸ ⟨hx, h0⟩
    · rintro ⟨hx, h0⟩
      exact ⟨b, hb, hx, by rw [hn b hb (by omega) (by omega), if_pos rfl], h0⟩
  rw [Bool.eq_iff_iff, fpEndStatus_fx, raised, hn 0 (by decide) (by decide) (by decide)]
  by_cases h0 : 0 = b
  · simp only [if_pos h0, true_or]
  · rw [if_neg h0, if_neg h0]
    split
    · rename_i hx; exact ⟨fun _ => rfl, fun _ => .inr hx⟩
    · rename_i hx; exact ⟨fun h => h.resolve_right hx, .inl⟩

/-- A Move To FPSCR instruction ends with the FPSCR `f`. -/
theorem fpMoveEnd_spec (rc : Bool) (f : Word) (s : State) :
    ∃ t, fpMoveEnd rc f s = .next t ∧ t.fpscr = f ∧ s.Recorded1 t rc ∧ t.event = s.enabledEvent (bitAt f 1) ∧
      t = { s with cr := t.cr, fpscr := t.fpscr, pc := s.nextPc, event := t.event } := by
  refine ⟨_, fpComplete_eq _ _, ?_, (s.setFpscr f).recorded1_record1 rc, ?_, ?_⟩
  · rw [State.record1_frame]; rfl
  · rw [State.record1_frame]; rfl
  · rw [State.record1_frame]; rfl

/-- Settles O42: the four forms write through `fpWrite`, mtfsb1 also through `fpEndStatus`. -/
theorem fpscrWriteResults : Obligations.FpscrWriteResults := by
  intro s bf u flm frb bt rc written b exception
  have ends : ∀ (f : Word) (g : Nat → Bool), FpscrSummaries f → (∀ i, i < 32 → i ≠ 1 → i ≠ 2 → bitAt f i = g i) →
      written (fpMoveEnd rc f s) g := fun f g hs hb => by
    obtain ⟨t, ht, hf, hr, he, hframe⟩ := fpMoveEnd_spec rc f s
    exact ⟨t, ht, by rw [hf]; exact hb, by rw [hf]; exact hs, hr, by rw [hf]; exact he, hframe⟩
  have hb : b < 32 := bt.isLt
  refine ⟨ends _ _ (fpWrite_summaries _ _ _) ?_, ends _ _ (fpWrite_summaries _ _ _) ?_,
    ends _ _ (fpWrite_summaries _ _ _) ?_, ends _ _ (fpEndStatus_summaries _ _) ?_⟩
  · intro i hi h1 h2
    have hn : bf.toNat < 8 := bf.isLt
    rw [bitAt_fpWrite _ _ _ hi h1 h2, bitAt_fpFieldMask bf i hi]
    simp only [decide_eq_true_eq]
    split
    · rw [bitAt_setFld _ _ hi (by omega), if_pos (by omega)]
      congr 1
      omega
    · rfl
  · intro i hi h1 h2
    rw [bitAt_fpWrite _ _ _ hi h1 h2, bitAt_fxmMask flm i hi, bitAt_lowWord]
  · intro i hi h1 h2
    rw [bitAt_fpWrite _ _ _ hi h1 h2, bitAt_fpBit hi hb, bitAt_zero]
    simp only [decide_eq_true_eq]
  · have new : ∀ i, i < 32 → i ≠ 1 → i ≠ 2 →
        bitAt (fpWrite s.fpscr (fpBit b) (fpBit b)) i = if i = b then true else bitAt s.fpscr i := fun i hi h1 h2 => by
      rw [bitAt_fpWrite _ _ _ hi h1 h2, bitAt_fpBit hi hb]
      by_cases h : i = b
      · simp only [if_pos h, decide_eq_true h, if_true]
      · simp only [if_neg h, decide_eq_false h, Bool.false_eq_true, if_false]
    intro i hi h1 h2
    by_cases h0 : i = 0
    · subst h0
      rw [fpEndStatus_setBit_fx _ _ hb new]
      simp only [true_and]
      rfl
    · rw [fpEndStatus_bit _ _ (by omega) hi, new i hi h1 h2]
      simp only [h0, false_and, if_false]

/-- mffs: the target, CR Field 1, a draw, and nothing else. -/
theorem execMffs_spec (frt : RegNum) (rc : Bool) (s : State) :
    ∃ t, execMffs frt rc s = .next t ∧ t.fprOf frt = highWord (s.draw 64) ++ s.readFpscr ∧ t.singleOf frt = false ∧
      t.fpscr = s.fpscr ∧ s.FloatingPoint t frt rc s.event := by
  let m := s.setFpr frt (highWord (s.draw 64) ++ s.readFpscr) false
  refine ⟨(m.record1 rc).drawn.advance, rfl, ?_, ?_, ?_, ?_, m.recorded1_record1 rc, fun a => ?_, ?_, ?_, ?_⟩
  · rw [State.record1_frame]; exact s.fprOf_setFpr_same frt (highWord (s.draw 64) ++ s.readFpscr) false
  · rw [State.record1_frame]; exact s.singleOf_setFpr_same frt (highWord (s.draw 64) ++ s.readFpscr) false
  · rw [State.record1_frame]; rfl
  · rw [State.record1_frame]; exact s.setFpr_otherFprs frt (highWord (s.draw 64) ++ s.readFpscr) false
  · rw [State.record1_frame]; rfl
  · rw [State.record1_frame]; rfl
  · rw [State.record1_frame]; rfl
  · rw [State.record1_frame]; rfl

theorem State.bitAt_setCrField (s : State) (n : BitVec 3) (v : BitVec 4) {i : Nat} (hi : i < 4) :
    bitAt (s.setCrField n v).cr (4 * n.toNat + i) = bitAt v i := by
  rw [← State.bitAt_crField _ n hi, State.crField_setCrField, if_pos rfl]

/-- What mcrfs leaves of the FPSCR: FX and the exception bits of the field it copies are cleared (R657). -/
theorem bitAt_mcrfsCleared (f : Word) (n : BitVec 3) {i : Nat} (hi : i < 32) (h1 : i ≠ 1) (h2 : i ≠ 2) :
    bitAt (fpscrSummed (f &&& ~~~(fpFieldMask n &&& (fpExceptionBits ||| fpBit 0)))) i =
      if i / 4 = n.toNat ∧ (i = 0 ∨ (3 ≤ i ∧ i ≤ 12) ∨ (21 ≤ i ∧ i ≤ 23)) then false else bitAt f i := by
  rw [fpscrSummed_other _ hi h1 h2, bitAt_and, bitAt_not _ hi, bitAt_and, bitAt_or, bitAt_fpFieldMask n i hi,
    bitAt_fpExceptionBits i hi, bitAt_fpBit hi (by decide), ← Bool.decide_or, ← Bool.decide_and]
  split
  · rename_i h
    rw [decide_eq_true (h.imp_right Or.symm), Bool.not_true, Bool.and_false]
  · rename_i h
    rw [decide_eq_false (mt (And.imp_right Or.symm) h), Bool.not_false, Bool.and_true]

/-- Settles O41: both read the FPSCR through its reserved bits, and mcrfs clears under a mask. -/
theorem fpscrReadResults : Obligations.FpscrReadResults := by
  intro s frt bf bfa rc reserved
  have reads : ∀ i, i < 32 → bitAt s.fpscr i = false ∨ reserved i = false → bitAt s.readFpscr i = bitAt s.fpscr i :=
    fun i hi h => bitAt_readReserved_of _ hi (h.imp_right (bitAt_fpscrReserved s hi).trans)
  have hbfa : bfa.toNat < 8 := bfa.isLt
  obtain ⟨t, ht, hv, hsingle, hf, hframe⟩ := execMffs_spec frt rc s
  refine ⟨⟨t, ht, hsingle, hf, fun i hi h => ?_, hframe⟩, _, rfl, fun i hi h => ?_, s.otherCrFields_setCrField bf _,
    fpscrSummed_summaries _, fun i hi h1 h2 => bitAt_mcrfsCleared s.fpscr bfa hi h1 h2, rfl⟩
  · rw [hv, bitAt_append_right _ _ (by omega) (by omega), Nat.add_sub_cancel_left, reads i hi h]
  · refine (s.bitAt_setCrField bf _ hi).trans ?_
    rw [bitAt_fld _ hi (by omega), reads _ (by omega) h]

end Sys2Proof.Machine
end

section
/-!
PROOFS, family 20_memory.md.  The value of a storage operand in the byte order in effect, read and stored: both orders through one
list of bytes, the least significant first.
-/
namespace Sys2Proof.Machine

/-! ## Bytes as the digits of a number -/

/-- The number whose base-256 digits are the bytes, the first least significant. -/
def bytesValue (bs : List Byte) : Nat := Nat.ofDigits 256 (bs.map BitVec.toNat)

@[simp] theorem bytesValue_nil : bytesValue [] = 0 := rfl

@[simp] theorem bytesValue_cons (b : Byte) (bs : List Byte) : bytesValue (b :: bs) = b.toNat + 256 * bytesValue bs :=
  Nat.ofDigits_cons ..

theorem bytesValue_concat (bs : List Byte) (b : Byte) :
    bytesValue (bs ++ [b]) = bytesValue bs + 256 ^ bs.length * b.toNat := by
  simp [bytesValue, Nat.ofDigits_append]

theorem bytesValue_lt (bs : List Byte) : bytesValue bs < 256 ^ bs.length := by
  have h := Nat.ofDigits_lt_base_pow_length (b := 256) (l := bs.map BitVec.toNat) (by decide) fun d hd => by
    obtain ⟨b, -, rfl⟩ := List.mem_map.mp hd
    exact b.isLt
  rwa [List.length_map] at h

/-- One more byte at the low end of a doubleword. -/
theorem shiftLeft_or_byte_toNat (x : DWord) (b : Byte) :
    ((x <<< 8) ||| zext64 b).toNat = (b.toNat + 256 * x.toNat) % 2 ^ 64 := by
  have hb : b.toNat < 256 := b.isLt
  have disjoint : (x <<< 8) &&& zext64 b = 0 := by
    ext i hi
    by_cases h : i < 8
    · simp [h]
    · simp [zext64, BitVec.getLsbD_of_ge b i (by omega)]
  rw [← BitVec.add_eq_or_of_and_eq_zero _ _ disjoint]
  simp only [zext64, BitVec.toNat_add, BitVec.toNat_shiftLeft, BitVec.toNat_setWidth, Nat.shiftLeft_eq]
  omega

theorem ofBytes_reverse_toNat (bs : List Byte) : (ofBytes bs.reverse).toNat = bytesValue bs % 2 ^ 64 := by
  induction bs with
  | nil => rfl
  | cons b rest ih =>
    have step : ofBytes (b :: rest).reverse = (ofBytes rest.reverse <<< 8) ||| zext64 b := by
      simp [ofBytes, List.foldl_append]
    rw [step, shiftLeft_or_byte_toNat, ih, bytesValue_cons]
    omega

theorem bytesValue_toBytesLow (n : Nat) (v : DWord) : bytesValue (toBytesLow n v) = v.toNat % 256 ^ n := by
  induction n generalizing v with
  | zero => simp [toBytesLow, Nat.mod_one]
  | succ n ih =>
    rw [toBytesLow, bytesValue_cons, ih, BitVec.toNat_setWidth, BitVec.toNat_ushiftRight, Nat.shiftRight_eq_div_pow,
      Nat.pow_succ' (n := n), Nat.mod_mul (a := 256)]

/-! ## Operands in storage -/

/-- A list in the order of the program's addresses, from or to the least significant byte first (20_memory.md R92, R106). -/
def State.inOrder (s : State) (bs : List Byte) : List Byte := if s.env.le then bs else bs.reverse

theorem State.inOrder_inOrder (s : State) (bs : List Byte) : s.inOrder (s.inOrder bs) = bs := by
  unfold State.inOrder
  split <;> simp

theorem State.inOrder_length (s : State) (bs : List Byte) : (s.inOrder bs).length = bs.length := by
  unfold State.inOrder
  split <;> simp

theorem State.memRead_eq (s : State) (ea : DWord) (n : Nat) :
    s.memRead ea n = ofBytes (s.inOrder (s.loadBytes ea n)).reverse := by
  unfold State.memRead State.inOrder
  split <;> simp

theorem State.memWrite_eq (s : State) (ea : DWord) (n : Nat) (v : DWord) :
    s.memWrite ea n v = s.storeBytes ea (s.inOrder (toBytesLow n v)) := rfl

theorem State.littleEndianValue_eq (s : State) (ea : DWord) (n : Nat) :
    s.littleEndianValue ea n = bytesValue (s.loadBytes ea n) := by
  induction n generalizing ea with
  | zero => rfl
  | succ n ih => rw [State.littleEndianValue, ih, State.loadBytes, bytesValue_cons]

theorem State.bigEndianValue_eq (s : State) (ea : DWord) (n : Nat) :
    s.bigEndianValue ea n = bytesValue (s.loadBytes ea n).reverse := by
  induction n generalizing ea with
  | zero => rfl
  | succ n ih =>
    rw [State.bigEndianValue, ih, State.loadBytes, List.reverse_cons, bytesValue_concat, List.length_reverse,
      State.loadBytes_length, Nat.add_comm, Nat.mul_comm]

theorem State.operandValue_eq (s : State) (ea : DWord) (n : Nat) :
    s.operandValue ea n = bytesValue (s.inOrder (s.loadBytes ea n)) := by
  unfold State.operandValue State.inOrder
  split
  · exact s.littleEndianValue_eq ea n
  · exact s.bigEndianValue_eq ea n

theorem State.operandValue_lt (s : State) (ea : DWord) (n : Nat) : s.operandValue ea n < 256 ^ n := by
  have h := bytesValue_lt (s.inOrder (s.loadBytes ea n))
  rwa [State.inOrder_length, State.loadBytes_length, ← State.operandValue_eq] at h

theorem State.memRead_toNat (s : State) (ea : DWord) (n : Nat) :
    (s.memRead ea n).toNat = s.operandValue ea n % 2 ^ 64 := by
  rw [State.memRead_eq, ofBytes_reverse_toNat, State.operandValue_eq]

theorem State.operandValue_congr {s t : State} (he : t.env = s.env) (hm : t.mem = s.mem) (ea : DWord) (n : Nat) :
    t.operandValue ea n = s.operandValue ea n := by
  simp only [State.operandValue_eq, State.inOrder, he, State.loadBytes_congr he hm]

/-! ## What a store leaves to be read -/

theorem State.trunc_toNat (s : State) (ea : DWord) :
    (s.trunc ea).toNat = if s.env.mode64 then ea.toNat else ea.toNat % 2 ^ 32 := by
  unfold State.trunc
  split
  · rfl
  · exact Nat.and_two_pow_sub_one_eq_mod ea.toNat 32

theorem State.trunc_eq_of_byteAddr_eq (s : State) {a b : DWord} (h : s.byteAddr a = s.byteAddr b) :
    s.trunc a = s.trunc b := by
  unfold State.byteAddr at h
  have h := BitVec.eq_of_toNat_eq h
  cases hle : s.env.le
  · simpa [hle] using h
  · simpa [hle] using h

/-- The bytes of an operand shorter than the 32-bit address space lie at distinct addresses. -/
theorem State.byteAddr_add_ne (s : State) (ea : DWord) {k : Nat} (h0 : 0 < k) (hk : k < 2 ^ 32) :
    s.byteAddr ea ≠ s.byteAddr (ea + BitVec.ofNat 64 k) := by
  intro h
  have h := congrArg BitVec.toNat (s.trunc_eq_of_byteAddr_eq h)
  have := ea.isLt
  rw [State.trunc_toNat, State.trunc_toNat, BitVec.toNat_add, BitVec.toNat_ofNat] at h
  split at h <;> omega

theorem State.loadBytes_storeBytes (s : State) (ea : DWord) (bs : List Byte) (h : s.mem.wf = true)
    (hl : bs.length ≤ 2 ^ 32) : (s.storeBytes ea bs).loadBytes ea bs.length = bs := by
  induction bs generalizing s ea with
  | nil => rfl
  | cons b rest ih =>
    rw [List.length_cons] at hl
    have first : ((s.storeByte ea b).storeBytes (ea + 1) rest).byteAt ea = b := by
      rw [State.byteAt_storeBytes_other _ _ _ _ (s.storeByte_wf ea b h), State.byteAt_storeByte s ea ea b h, if_pos rfl]
      intro k hk
      have e : ea + 1 + BitVec.ofNat 64 k = ea + BitVec.ofNat 64 (k + 1) := by
        rw [BitVec.add_assoc, Nat.add_comm k, BitVec.ofNat_add]
        rfl
      rw [e]
      exact (s.storeByte ea b).byteAddr_add_ne ea (by omega) (by omega)
    rw [State.storeBytes, List.length_cons, State.loadBytes, first, ih _ _ (s.storeByte_wf ea b h) (by omega)]

theorem State.operandValue_memWrite (s : State) (ea : DWord) (n : Nat) (v : DWord) (h : s.mem.wf = true)
    (hn : n ≤ 2 ^ 32) : (s.memWrite ea n v).operandValue ea n = v.toNat % 256 ^ n := by
  have hl : (s.inOrder (toBytesLow n v)).length = n := by rw [State.inOrder_length, State.toBytesLow_length]
  have hb := s.loadBytes_storeBytes ea (s.inOrder (toBytesLow n v)) h (by omega)
  rw [hl, ← State.memWrite_eq] at hb
  have ho : (s.memWrite ea n v).inOrder = s.inOrder := by
    rw [State.memWrite_eq, State.storeBytes_frame]
    rfl
  rw [State.operandValue_eq, hb, ho, State.inOrder_inOrder, bytesValue_toBytesLow]

end Sys2Proof.Machine
end

section
/-!
PROOFS, family 20_memory.md.  The shared loads and stores of one register, and the instructions that are built on them (O25 to
O28).
-/
namespace Sys2Proof.Machine

/-! ## Completing -/

/-- A load past its checks completes. -/
theorem loadInto_loadsGpr {rt : RegNum} {ea : DWord} {n : Nat} {ext : DWord → DWord} {s : State} {v : Int}
    (h : s.Accessible .load ea n) (hv : (ext (s.memRead ea n)).toNat = (v % 2 ^ 64).toNat) :
    LoadsGpr (loadInto rt ea n ext s) s rt v none := by
  refine ⟨_, loadThen_of_accessible _ h, ?_, fun q hq => s.gprOf_setGpr_other _ hq, fun _ => rfl, rfl, rfl⟩
  exact (congrArg BitVec.toNat (s.gprOf_setGpr_same rt _)).trans hv

theorem loadUpdateInvalid_iff (rt ra : RegNum) : loadUpdateInvalid rt ra = true ↔ ra = 0 ∨ ra = rt := by
  simp [loadUpdateInvalid]

theorem storeUpdateInvalid_iff (ra : RegNum) : storeUpdateInvalid ra = true ↔ ra = 0 := by
  simp [storeUpdateInvalid]

theorem loadUpdate_of_valid {rt ra : RegNum} (h0 : ra ≠ 0) (ht : ra ≠ rt) (ea : DWord) (n : Nat) (ext : DWord → DWord)
    (s : State) : loadUpdate rt ra ea n ext s = loadThen ea n s fun v => finish ((s.setGpr rt (ext v)).setGpr ra ea) :=
  if_neg fun h => ((loadUpdateInvalid_iff rt ra).mp h).elim h0 ht

theorem loadUpdate_of_invalid {rt ra : RegNum} (h : ra = 0 ∨ ra = rt) (ea : DWord) (n : Nat) (ext : DWord → DWord)
    (s : State) : RaisesIllegal (loadUpdate rt ra ea n ext s) s :=
  if_pos ((loadUpdateInvalid_iff rt ra).mpr h)

theorem storeUpdate_of_valid {ra : RegNum} (h : ra ≠ 0) (v ea : DWord) (n : Nat) (s : State) :
    storeUpdate ra v ea n s = storeThen ea n v s fun m => finish (m.setGpr ra ea) :=
  if_neg fun hi => h ((storeUpdateInvalid_iff ra).mp hi)

theorem storeUpdate_of_invalid {ra : RegNum} (h : ra = 0) (v ea : DWord) (n : Nat) (s : State) :
    RaisesIllegal (storeUpdate ra v ea n s) s :=
  if_pos ((storeUpdateInvalid_iff ra).mpr h)

/-- A load with update past its checks completes; the write of RA leaves RT, which is another register. -/
theorem loadUpdate_loadsGpr {rt ra : RegNum} {ea : DWord} {n : Nat} {ext : DWord → DWord} {s : State} {v : Int}
    (h0 : ra ≠ 0) (ht : ra ≠ rt) (h : s.Accessible .load ea n)
    (hv : (ext (s.memRead ea n)).toNat = (v % 2 ^ 64).toNat) :
    LoadsGpr (loadUpdate rt ra ea n ext s) s rt v (some (ra, ea)) := by
  rw [loadUpdate_of_valid h0 ht]
  refine ⟨_, loadThen_of_accessible _ h, ?_, fun q hq => ?_, fun _ => rfl, rfl, rfl⟩
  · rw [← hv]
    exact congrArg BitVec.toNat ((State.gprOf_setGpr_other _ _ ht.symm).trans (s.gprOf_setGpr_same rt _))
  · refine (State.gprOf_setGpr _ ra q ea).trans ?_
    rw [s.gprOf_setGpr_other _ hq]

/-- A load with update completes or is an invalid form. -/
theorem loadUpdate_results {rt ra : RegNum} {ea : DWord} {n : Nat} {ext : DWord → DWord} {s : State} {v : Int}
    (hv : (ext (s.memRead ea n)).toNat = (v % 2 ^ 64).toNat) :
    (ra ≠ 0 → ra ≠ rt → s.Accessible .load ea n → LoadsGpr (loadUpdate rt ra ea n ext s) s rt v (some (ra, ea))) ∧
      (ra = 0 ∨ ra = rt → RaisesIllegal (loadUpdate rt ra ea n ext s) s) :=
  ⟨fun h0 ht h => loadUpdate_loadsGpr h0 ht h hv, fun h => loadUpdate_of_invalid h ea n ext s⟩

/-- A store past its checks completes as its continuation does, where that touches no more than GPRs and the draws. -/
theorem storeThen_storesOperand {s m : State} {ea : DWord} {n : Nat} {v : DWord} {k : State → Res} {upd : Option RegNum}
    (hw : s.mem.wf = true) (hn : n ≤ 8) (h : s.Accessible .store ea n) (hk : k (s.memWrite ea n v) = finish m)
    (hm : m = { s.memWrite ea n v with gpr := m.gpr, undef := m.undef })
    (hg : ∀ q, m.gprOf q = match upd with
      | some ra => if q = ra then ea else s.gprOf q
      | none => s.gprOf q) :
    StoresOperand (storeThen ea n v s k) s ea n v.toNat upd := by
  obtain ⟨frame, -, stored⟩ := s.memWrite_spec ea n v hw
  have he : m.env = (s.memWrite ea n v).env := by rw [hm]
  have hmem : m.mem = (s.memWrite ea n v).mem := by rw [hm]
  refine ⟨m.advance, (storeThen_of_accessible v k h).trans hk, ?_, ?_, hg, ?_, ?_⟩
  · exact (State.operandValue_congr (t := m.advance) he hmem ea n).trans (s.operandValue_memWrite ea n v hw (by omega))
  · rw [hm]
    exact stored
  · rw [hm, frame]
    rfl
  · rw [hm, frame]
    rfl

theorem State.gprOf_memWrite (s : State) (ea : DWord) (n : Nat) (v : DWord) (q : RegNum) :
    (s.memWrite ea n v).gprOf q = s.gprOf q := by
  rw [State.memWrite_eq, State.storeBytes_frame]
  rfl

section
variable {s : State} {ea : DWord} {n : Nat} (hw : s.mem.wf = true) (hn : n ≤ 8) (h : s.Accessible .store ea n)
include hw hn h

theorem storeFrom_storesOperand (v : DWord) : StoresOperand (storeFrom v ea n s) s ea n v.toNat none :=
  storeThen_storesOperand hw hn h rfl rfl (s.gprOf_memWrite ea n v)

/-- The value stored was read before RA is written. -/
theorem storeUpdate_storesOperand {ra : RegNum} (h0 : ra ≠ 0) (v : DWord) :
    StoresOperand (storeUpdate ra v ea n s) s ea n v.toNat (some ra) := by
  rw [storeUpdate_of_valid h0]
  refine storeThen_storesOperand hw hn h rfl rfl fun q => ?_
  rw [State.gprOf_setGpr, State.gprOf_memWrite]

end

/-! ## Values loaded -/

theorem toNat_intCast_emod (v : Nat) : ((v : Int) % 2 ^ 64).toNat = v % 2 ^ 64 := by omega

theorem State.memRead_zero_extended (s : State) (ea : DWord) (n : Nat) :
    (id (s.memRead ea n)).toNat = ((s.operandValue ea n : Int) % 2 ^ 64).toNat := by
  rw [toNat_intCast_emod, id, State.memRead_toNat]

theorem sext64_toNat {n : Nat} (x : BitVec (8 * n)) : (sext64 x).toNat = (signedValue n x.toNat % 2 ^ 64).toNat := by
  have sign : signedValue n x.toNat = x.toInt := by
    rw [BitVec.toInt_eq_msb_cond, BitVec.msb_eq_decide, signedValue]
    simp
  rw [sign]
  exact BitVec.toNat_ofInt ..

/-- The low-order bytes of a doubleword that holds an operand are the operand. -/
theorem State.memRead_setWidth_toNat (s : State) (ea : DWord) {n : Nat} (hn : n ≤ 8) :
    ((s.memRead ea n).setWidth (8 * n)).toNat = s.operandValue ea n := by
  have h : s.operandValue ea n < 2 ^ (8 * n) := by
    rw [Nat.pow_mul]
    exact s.operandValue_lt ea n
  rw [BitVec.toNat_setWidth, State.memRead_toNat, Nat.mod_mod_of_dvd _ (Nat.pow_dvd_pow 2 (by omega)), Nat.mod_eq_of_lt h]

theorem State.memRead_signHalf (s : State) (ea : DWord) :
    (signHalf (s.memRead ea 2)).toNat = (signedValue 2 (s.operandValue ea 2) % 2 ^ 64).toNat :=
  (sext64_toNat (n := 2) _).trans
    (congrArg (fun v => (signedValue 2 v % 2 ^ 64).toNat) (s.memRead_setWidth_toNat ea (n := 2) (by decide)))

theorem State.memRead_signWord (s : State) (ea : DWord) :
    (signWord (s.memRead ea 4)).toNat = (signedValue 4 (s.operandValue ea 4) % 2 ^ 64).toNat :=
  (sext64_toNat (n := 4) _).trans
    (congrArg (fun v => (signedValue 4 v % 2 ^ 64).toNat) (s.memRead_setWidth_toNat ea (n := 4) (by decide)))

/-! ## The byte reversal -/

/-- Byte `k` of a number, byte 0 the least significant. -/
def byteOf (v k : Nat) : Nat := v / 256 ^ k % 256

theorem fld_byte_toNat (v : DWord) {k : Nat} (hk : k < 8) : (fld v (56 - 8 * k) 8).toNat = byteOf v.toNat k := by
  have hs : 64 - (56 - 8 * k) - 8 = 8 * k := by omega
  rw [fld, BitVec.extractLsb'_toNat, hs, Nat.shiftRight_eq_div_pow, Nat.pow_mul]
  rfl

theorem append_byte_toNat {w : Nat} (x : BitVec w) (b : Byte) : (x ++ b).toNat = x.toNat * 256 + b.toNat := by
  rw [BitVec.toNat_append, ← Nat.shiftLeft_add_eq_or_of_lt b.isLt, Nat.shiftLeft_eq]

theorem reverseHalf_toNat (v : DWord) : (reverseHalf v).toNat = byteOf v.toNat 0 * 256 + byteOf v.toNat 1 := by
  have h : (fld v 56 8 ++ fld v 48 8).toNat = byteOf v.toNat 0 * 256 + byteOf v.toNat 1 := by
    rw [append_byte_toNat, ← fld_byte_toNat v (k := 0) (by decide), ← fld_byte_toNat v (k := 1) (by decide)]
  rw [← h]
  exact BitVec.toNat_setWidth_of_le (by decide)

theorem reverseWord_toNat (v : DWord) : (reverseWord v).toNat =
    byteOf v.toNat 0 * 256 ^ 3 + byteOf v.toNat 1 * 256 ^ 2 + byteOf v.toNat 2 * 256 + byteOf v.toNat 3 := by
  have h : (fld v 56 8 ++ fld v 48 8 ++ fld v 40 8 ++ fld v 32 8).toNat =
      byteOf v.toNat 0 * 256 ^ 3 + byteOf v.toNat 1 * 256 ^ 2 + byteOf v.toNat 2 * 256 + byteOf v.toNat 3 := by
    rw [append_byte_toNat, append_byte_toNat, append_byte_toNat, ← fld_byte_toNat v (k := 0) (by decide),
      ← fld_byte_toNat v (k := 1) (by decide), ← fld_byte_toNat v (k := 2) (by decide),
      ← fld_byte_toNat v (k := 3) (by decide)]
    ring
  rw [← h]
  exact BitVec.toNat_setWidth_of_le (by decide)

/-- The doubleword that holds an operand of at most 8 bytes has its value. -/
theorem State.memRead_toNat_of_le (s : State) (ea : DWord) {n : Nat} (hn : n ≤ 8) :
    (s.memRead ea n).toNat = s.operandValue ea n := by
  rw [State.memRead_toNat, Nat.mod_eq_of_lt]
  exact (s.operandValue_lt ea n).trans_le (Nat.pow_le_pow_right (by decide) hn)

/-! ## The instructions -/

section
variable (s : State) {ra : RegNum} (h : ra ≠ 0)
include h

theorem State.ra0_of_ne : s.ra0 ra = s.gprOf ra := if_neg h

theorem State.eaXU_eq (rb : RegNum) : s.eaXU ra rb = s.eaX ra rb := by
  rw [State.eaXU, State.eaX, s.ra0_of_ne h]

theorem State.eaDU_eq (d : BitVec 16) : s.eaDU ra d = s.eaD ra d := by
  rw [State.eaDU, State.eaD, s.ra0_of_ne h]

theorem State.eaDSU_eq (ds : BitVec 14) : s.eaDSU ra ds = s.eaDS ra ds := by
  rw [State.eaDSU, State.eaDS, s.ra0_of_ne h]

end

/-- Settles O25: every form is `loadInto`, through the identity or a sign extension. -/
theorem loadResults : Obligations.LoadResults := by
  intro s rt ra rb d ds base eaX eaD eaDS z a
  have zero : ∀ ea n, z ea n (loadInto rt ea n id s) := fun ea n h => loadInto_loadsGpr h (s.memRead_zero_extended ea n)
  have half : ∀ ea, a ea 2 (loadInto rt ea 2 signHalf s) := fun ea h => loadInto_loadsGpr h (s.memRead_signHalf ea)
  have word : ∀ ea, a ea 4 (loadInto rt ea 4 signWord s) := fun ea h => loadInto_loadsGpr h (s.memRead_signWord ea)
  exact ⟨zero _ _, zero _ _, zero _ _, zero _ _, half _, half _, zero _ _, zero _ _, word _, word _, zero _ _, zero _ _⟩

/-- Settles O26: every form is `loadUpdate`. -/
theorem loadWithUpdateResults : Obligations.LoadWithUpdateResults := by
  intro s rt ra rb d ds eaX eaD eaDS z a
  have zero : ∀ ea n, z ea n (loadUpdate rt ra ea n id s) := fun ea n => loadUpdate_results (s.memRead_zero_extended ea n)
  have half : ∀ ea, a ea 2 (loadUpdate rt ra ea 2 signHalf s) := fun ea => loadUpdate_results (s.memRead_signHalf ea)
  have word : ∀ ea, a ea 4 (loadUpdate rt ra ea 4 signWord s) := fun ea => loadUpdate_results (s.memRead_signWord ea)
  exact ⟨zero _ _, zero _ _, zero _ _, zero _ _, half _, half _, zero _ _, zero _ _, word _, zero _ _, zero _ _⟩

/-- Settles O27: every form is `storeFrom` or `storeUpdate`. -/
theorem storeResults : Obligations.StoreResults := by
  intro s rs ra rb d ds hw base eaX eaD eaDS st stu
  have plain : ∀ ea n, n ≤ 8 → st ea n (storeFrom (s.gprOf rs) ea n s) := fun ea n hn h =>
    storeFrom_storesOperand hw hn h _
  have update : ∀ {ea ea' n}, (ra ≠ 0 → ea' = ea) → n ≤ 8 → stu ea n (storeUpdate ra (s.gprOf rs) ea' n s) :=
    fun he hn => ⟨fun h0 h => he h0 ▸ storeUpdate_storesOperand hw hn (he h0 ▸ h) h0 _,
      fun h => storeUpdate_of_invalid h _ _ _ s⟩
  have x : ra ≠ 0 → s.eaXU ra rb = eaX := fun h => s.eaXU_eq h rb
  have d : ra ≠ 0 → s.eaDU ra d = eaD := fun h => s.eaDU_eq h d
  have ds : ra ≠ 0 → s.eaDSU ra ds = eaDS := fun h => s.eaDSU_eq h ds
  exact ⟨plain _ _ (by decide), plain _ _ (by decide), plain _ _ (by decide), plain _ _ (by decide),
    plain _ _ (by decide), plain _ _ (by decide), plain _ _ (by decide), plain _ _ (by decide),
    update d (by decide), update x (by decide), update d (by decide), update x (by decide),
    update d (by decide), update x (by decide), update ds (by decide), update x (by decide)⟩

/-- Settles O28: the byte-reversed forms are the plain ones with the bytes of the value in the other order. -/
theorem byteReversalResults : Obligations.ByteReversalResults := by
  intro s r ra rb ea byte rev2 rev4
  have half : ∀ v : DWord, (reverseHalf v).toNat = rev2 v.toNat := reverseHalf_toNat
  have word : ∀ v : DWord, (reverseWord v).toNat = rev4 v.toNat := reverseWord_toNat
  have unsigned : ∀ {n} (v : DWord), v.toNat = n → v.toNat = ((n : Int) % 2 ^ 64).toNat := fun v h => by
    rw [toNat_intCast_emod, ← h, Nat.mod_eq_of_lt v.isLt]
  refine ⟨fun h => loadInto_loadsGpr h (unsigned _ ?_), fun h => loadInto_loadsGpr h (unsigned _ ?_), fun hw h => ?_,
    fun hw h => ?_⟩
  · exact (half _).trans (congrArg rev2 (s.memRead_toNat_of_le ea (by decide)))
  · exact (word _).trans (congrArg rev4 (s.memRead_toNat_of_le ea (by decide)))
  · exact half _ ▸ storeFrom_storesOperand hw (by decide) h _
  · exact word _ ▸ storeFrom_storesOperand hw (by decide) h _

end Sys2Proof.Machine
end

section
/-!
PROOFS, family 20_memory.md.  What an access that its checks turn away does (O29, O30).
-/
namespace Sys2Proof.Machine

/-! ## One register (20_memory.md R97, R100) -/

/-- The two checks of an access, in their order, turn it away with their events and no other effect. -/
def State.FaultsFirst (s : State) (kind : AccessKind) (ea : DWord) (n : Nat) (res : Res) : Prop :=
  (s.alignFault (s.trunc ea) n = true → Raises res s (.alignment s.pc s.insn (s.trunc ea))) ∧
    (s.alignFault (s.trunc ea) n = false → s.available kind ea n = false →
      Raises res s (.dataStorage s.pc s.insn (s.trunc ea) kind))

section
variable (s : State) (ea : DWord) (n : Nat)

theorem checkedAccess_faultsFirst (kind : AccessKind) (k : Unit → Res) :
    s.FaultsFirst kind ea n (checkedAccess kind ea n s k) := by
  rcases checkedAccess_cases kind ea n s k with ⟨ha, e⟩ | ⟨ha, hv, e⟩ | ⟨⟨ha, hv⟩, -⟩
  · exact ⟨fun _ => e, fun h => absurd (ha.symm.trans h) (by decide)⟩
  · exact ⟨fun h => absurd (ha.symm.trans h) (by decide), fun _ _ => e⟩
  · exact ⟨fun h => absurd (ha.symm.trans h) (by decide), fun _ h => absurd (hv.symm.trans h) (by decide)⟩

theorem loadThen_faultsFirst (k : DWord → Res) : s.FaultsFirst .load ea n (loadThen ea n s k) :=
  checkedAccess_faultsFirst s ea n .load _

theorem storeThen_faultsFirst (v : DWord) (k : State → Res) : s.FaultsFirst .store ea n (storeThen ea n v s k) :=
  checkedAccess_faultsFirst s ea n .store _

theorem loadInto_faultsFirst (rt : RegNum) (ext : DWord → DWord) : s.FaultsFirst .load ea n (loadInto rt ea n ext s) :=
  loadThen_faultsFirst s ea n _

theorem fpLoad_faultsFirst (frt : RegNum) (conv : DWord → DWord) (single : Bool) :
    s.FaultsFirst .load ea n (fpLoad frt ea n conv single s) :=
  loadThen_faultsFirst s ea n _

theorem storeFrom_faultsFirst (v : DWord) : s.FaultsFirst .store ea n (storeFrom v ea n s) :=
  storeThen_faultsFirst s ea n v _

theorem fpStore_faultsFirst (v : DWord) : s.FaultsFirst .store ea n (fpStore v ea n s) :=
  storeThen_faultsFirst s ea n v _

variable {ra : RegNum} (h0 : ra ≠ 0)
include h0

theorem loadUpdate_faultsFirst {rt : RegNum} (ht : ra ≠ rt) (ext : DWord → DWord) :
    s.FaultsFirst .load ea n (loadUpdate rt ra ea n ext s) := by
  rw [loadUpdate_of_valid h0 ht]
  exact loadThen_faultsFirst s ea n _

theorem storeUpdate_faultsFirst (v : DWord) : s.FaultsFirst .store ea n (storeUpdate ra v ea n s) := by
  rw [storeUpdate_of_valid h0]
  exact storeThen_faultsFirst s ea n v _

theorem fpLoadUpdate_of_valid (frt : RegNum) (conv : DWord → DWord) (single : Bool) :
    fpLoadUpdate frt ra ea n conv single s =
      loadThen ea n s fun v => finish ((s.setFpr frt (conv v) single).setGpr ra ea) :=
  if_neg fun hi => h0 ((storeUpdateInvalid_iff ra).mp hi)

theorem fpStoreUpdate_of_valid (v : DWord) :
    fpStoreUpdate ra v ea n s = storeThen ea n v s fun m => finish (m.setGpr ra ea).drawn :=
  if_neg fun hi => h0 ((storeUpdateInvalid_iff ra).mp hi)

theorem fpLoadUpdate_faultsFirst (frt : RegNum) (conv : DWord → DWord) (single : Bool) :
    s.FaultsFirst .load ea n (fpLoadUpdate frt ra ea n conv single s) := by
  rw [fpLoadUpdate_of_valid s ea n h0]
  exact loadThen_faultsFirst s ea n _

theorem fpStoreUpdate_faultsFirst (v : DWord) : s.FaultsFirst .store ea n (fpStoreUpdate ra v ea n s) := by
  rw [fpStoreUpdate_of_valid s ea n h0]
  exact storeThen_faultsFirst s ea n v _

end

/-- Settles O29: every form, once it is valid, is a checked access; with update the address is the same, RA not being 0. -/
theorem accessFaults : Obligations.AccessFaults := by
  intro s r ra rb d ds base eaX eaD eaDS faults
  have ld : ∀ {ea n ext}, faults .load ea n (loadInto r ea n ext s) := loadInto_faultsFirst s _ _ _ _
  have fl : ∀ {ea n c b}, faults .load ea n (fpLoad r ea n c b s) := fpLoad_faultsFirst s _ _ _ _ _
  have st : ∀ {ea n v}, faults .store ea n (storeFrom v ea n s) := storeFrom_faultsFirst s _ _ _
  have fs : ∀ {ea n v}, faults .store ea n (fpStore v ea n s) := fpStore_faultsFirst s _ _ _
  refine ⟨ld, ld, ld, ld, ld, ld, ld, ld, ld, ld, ld, ld, ld, ld, fl, fl, fl, fl,
    st, st, st, st, st, st, st, st, st, st, fs, fs, st, st, fs, fun h0 => ?_⟩
  have x : s.eaXU ra rb = eaX := s.eaXU_eq h0 rb
  have d : s.eaDU ra d = eaD := s.eaDU_eq h0 d
  have ds : s.eaDSU ra ds = eaDS := s.eaDSU_eq h0 ds
  have stu : ∀ {ea ea' n v}, ea' = ea → faults .store ea n (storeUpdate ra v ea' n s) := fun e =>
    e ▸ storeUpdate_faultsFirst s _ _ h0 _
  have flu : ∀ {ea ea' n c b}, ea' = ea → faults .load ea n (fpLoadUpdate r ra ea' n c b s) := fun e =>
    e ▸ fpLoadUpdate_faultsFirst s _ _ h0 _ _ _
  have fsu : ∀ {ea ea' n v}, ea' = ea → faults .store ea n (fpStoreUpdate ra v ea' n s) := fun e =>
    e ▸ fpStoreUpdate_faultsFirst s _ _ h0 _
  refine ⟨stu d, stu x, stu d, stu x, stu d, stu x, stu ds, stu x, flu d, flu x, flu d, flu x, fsu d, fsu x, stu d, stu x,
    fun ht => ?_⟩
  have ldu : ∀ {ea ea' n ext}, ea' = ea → faults .load ea n (loadUpdate r ra ea' n ext s) := fun e =>
    e ▸ loadUpdate_faultsFirst s _ _ h0 ht _
  exact ⟨ldu d, ldu x, ldu d, ldu x, ldu d, ldu x, ldu d, ldu x, ldu x, ldu ds, ldu x⟩

/-! ## Several units (42_fx_multiple_string.md R301) -/

/-- The first unit denied is the first that is not available. -/
theorem State.firstDenied_eq_some (s : State) (kind : AccessKind) (size : Nat) (ea : DWord) {count k : Nat}
    (hk : k < count) (before : ∀ j, j < k → s.available kind (ea + BitVec.ofNat 64 (size * j)) size = true)
    (denied : s.available kind (ea + BitVec.ofNat 64 (size * k)) size = false) :
    s.firstDenied kind size ea count = some (s.trunc (ea + BitVec.ofNat 64 (size * k))) := by
  induction count generalizing ea k with
  | zero => exact absurd hk (Nat.not_lt_zero k)
  | succ n ih =>
    cases k with
    | zero =>
      rw [Nat.mul_zero, BitVec.add_zero] at denied ⊢
      exact if_neg (Bool.eq_false_iff.mp denied)
    | succ k =>
      have next : ∀ j, ea + BitVec.ofNat 64 size + BitVec.ofNat 64 (size * j) = ea + BitVec.ofNat 64 (size * (j + 1)) :=
        fun j => by rw [BitVec.add_assoc, ← BitVec.ofNat_add, Nat.mul_succ, Nat.add_comm]
      have first : s.available kind ea size = true := by simpa using before 0 (by omega)
      rw [← next k] at denied ⊢
      refine (if_pos first).trans (ih _ (by omega) (fun j hj => ?_) denied)
      rw [next j]
      exact before (j + 1) (by omega)

section
variable (s : State) (kind : AccessKind) (words : Bool) (ea : DWord) (count : Nat) (k : Unit → Res)

theorem checkedMultiple_of_le (h : s.env.le = true) :
    Raises (checkedMultiple kind words ea count s k) s (.alignment s.pc s.insn (s.trunc ea)) :=
  if_pos h

theorem checkedMultiple_of_alignFault (h : s.env.le = false) (ha : s.alignFaultMultiple (s.trunc ea) = true) :
    Raises (checkedMultiple kind true ea count s k) s (.alignment s.pc s.insn (s.trunc ea)) :=
  (if_neg (Bool.eq_false_iff.mp h)).trans (if_pos ha)

/-- Past the alignment check, the first unavailable unit ends the transfer before it begins. -/
theorem checkedMultiple_of_denied {a : DWord} (h : s.env.le = false)
    (ha : (words && s.alignFaultMultiple (s.trunc ea)) = false)
    (hd : s.firstDenied kind (if words then 4 else 1) ea count = some a) :
    Raises (checkedMultiple kind words ea count s k) s (.dataStorage s.pc s.insn a kind) := by
  rw [checkedMultiple, if_neg (Bool.eq_false_iff.mp h), if_neg (Bool.eq_false_iff.mp ha), hd]
  rfl

end

theorem execLmw_of_valid {rt ra : RegNum} (h : ra.toNat < rt.toNat) (d : BitVec 16) (s : State) :
    execLmw rt ra d s = checkedMultiple .load true (s.eaD ra d) (regsTo31 rt) s fun _ =>
      finish (s.loadWords rt (s.eaD ra d) (regsTo31 rt)) :=
  if_neg fun hi => absurd (of_decide_eq_true hi : rt ≤ ra) (Nat.not_le.mpr h)

theorem stringRangeInvalid_iff (rt ra : RegNum) (n : Nat) :
    stringRangeInvalid rt ra n = true ↔ 4 * (ra - rt).toNat < n := by
  rw [stringRangeInvalid, inRegRange, regsForBytes, decide_eq_true_eq]
  omega

theorem execLswi_of_valid {rt ra : RegNum} {nb : BitVec 5} (h : ¬4 * (ra - rt).toNat < nbBytes nb) (s : State) :
    execLswi rt ra nb s = checkedMultiple .load false (s.ra0 ra) (nbBytes nb) s fun _ =>
      finish (s.loadStringInto rt (s.ra0 ra) (nbBytes nb)) :=
  if_neg fun hi => h ((stringRangeInvalid_iff rt ra _).mp hi)

theorem execLswx_of_valid {rt ra rb : RegNum} {s : State} (ha : rt ≠ ra) (hb : rt ≠ rb)
    (hra : ¬4 * (ra - rt).toNat < s.byteCount) (hrb : ¬4 * (rb - rt).toNat < s.byteCount) :
    execLswx rt ra rb s = checkedMultiple .load false (s.eaX ra rb) s.byteCount s fun _ =>
      if s.byteCount = 0 then finish (s.setGpr rt (s.draw 64)).drawn
      else finish (s.loadStringInto rt (s.eaX ra rb) s.byteCount) := by
  refine if_neg ?_
  simp only [lswxFormInvalid, Bool.or_eq_true, beq_iff_eq, stringRangeInvalid_iff]
  tauto

/-- Settles O30: every form, once it is valid, goes through the same checks, in words or in bytes. -/
theorem multipleAccessFaults : Obligations.MultipleAccessFaults := by
  intro s r ra rb d nb k base eaX eaD immediate count turned denied multiple string inRange
  have words : ∀ kind c, multiple kind (checkedMultiple kind true eaD (32 - r.toNat) s c) := fun kind c =>
    ⟨checkedMultiple_of_le s kind true eaD _ c, checkedMultiple_of_alignFault s kind eaD _ c,
      fun h ha hk before hd => checkedMultiple_of_denied s kind true eaD _ c h ha
        (s.firstDenied_eq_some kind 4 eaD hk before hd)⟩
  have bytes : ∀ kind ea n c, string kind ea n (checkedMultiple kind false ea n s c) := fun kind ea n c =>
    ⟨checkedMultiple_of_le s kind false ea n c, fun h hk before hd => checkedMultiple_of_denied s kind false ea n c h rfl
      (s.firstDenied_eq_some kind 1 ea hk before hd)⟩
  have lmw : ra.toNat < r.toNat → multiple .load (execLmw r ra d s) := fun h => by
    rw [execLmw_of_valid h]
    exact words _ _
  have lswi : ¬inRange ra immediate → string .load base immediate (execLswi r ra nb s) := fun h => by
    rw [execLswi_of_valid h]
    exact bytes _ _ _ _
  have lswx : r ≠ ra → r ≠ rb → ¬inRange ra count → ¬inRange rb count → string .load eaX count (execLswx r ra rb s) :=
    fun ha hb hra hrb => by
      rw [execLswx_of_valid ha hb hra hrb]
      exact bytes _ _ _ _
  have stmw : multiple .store (execStmw r ra d s) := words _ _
  have stswi : string .store base immediate (execStswi r ra nb s) := bytes _ _ _ _
  have stswx : string .store eaX count (execStswx r ra rb s) := bytes _ _ _ _
  exact ⟨lmw, stmw, lswi, lswx, stswi, stswx⟩

end Sys2Proof.Machine
end

section
/-!
PROOFS, family 30_encoding.md.  What the decoder makes of a word whose fields are known: the primary opcodes with a table of
their own, the slots of less than five bits, and one rule per form of the encoder.
-/
namespace Sys2Proof.Machine

/-! ## Primary opcodes with extended opcodes (30_encoding.md R161) -/

section
variable {w : Word}

theorem decode_of_primary19 (h : fld w 0 6 = 19) : decode w = decode19 w := by rw [decode, h]; rfl

theorem decode_of_primary30 (h : fld w 0 6 = 30) : decode w = decode30 w := by rw [decode, h]; rfl

theorem decode_of_primary31 (h : fld w 0 6 = 31) : decode w = decode31 w := by rw [decode, h]; rfl

theorem decode_of_primary58 (h : fld w 0 6 = 58) : decode w = decode58 w := by rw [decode, h]; rfl

theorem decode_of_primary59 (h : fld w 0 6 = 59) : decode w = decode59 w := by rw [decode, h]; rfl

theorem decode_of_primary62 (h : fld w 0 6 = 62) : decode w = decode62 w := by rw [decode, h]; rfl

theorem decode_of_primary63 (h : fld w 0 6 = 63) : decode w = decode63 w := by rw [decode, h]; rfl

/-- The extended opcodes of the XO-form (R161). -/
def xoOpcodes : List (BitVec 9) :=
  [8, 9, 10, 11, 40, 73, 75, 104, 136, 138, 200, 202, 232, 233, 234, 235, 266, 457, 459, 489, 491]

/-- No XO-form opcode, behind either value of OE, is in the first table of primary opcode 31. -/
theorem decode31_of_xoForm {oe : Bool} {xo : BitVec 9} (h : fld w 21 10 = BitVec.ofBool oe ++ xo) (hxo : xo ∈ xoOpcodes) :
    decode31 w = decode31Xo w := by
  rw [decode31, h]
  fin_cases hxo
  all_goals cases oe
  all_goals rfl

/-- The A-form opcodes of primary opcode 63 have bit 26 set; the low halves of its X-form opcodes do not. -/
theorem decode63_of_xForm {xo : BitVec 10} (h : fld w 21 10 = xo) (hxo : (fld xo 5 5).toNat < 16) :
    decode63 w = decode63X w := by
  have low : fld w 26 5 = fld xo 5 5 := by rw [← h, fld_fld _ (by decide) (by decide)]
  rw [decode63, low]
  generalize (fld xo 5 5).toNat = n at hxo
  interval_cases n
  all_goals rfl

end

/-! ## Slots that hold less than five bits -/

section
variable {w : Word} {start : Nat} (hs : start + 5 ≤ 32)
include hs

theorem fld_of_bfSlot {bf : BitVec 3} (h : fld w start 5 = bfSlot bf) : fld w start 3 = bf := by
  obtain ⟨hbf, -⟩ := slot_fields bf false 0 0
  rw [← hbf, ← h, fld_fld _ (by decide) hs, Nat.add_zero]

theorem fld_of_cmpSlot {bf : BitVec 3} {l : Bool} (h : fld w start 5 = cmpSlot bf l) : fld w start 3 = bf := by
  obtain ⟨-, hbf, -⟩ := slot_fields bf l 0 0
  rw [← hbf, ← h, fld_fld _ (by decide) hs, Nat.add_zero]

theorem bitAt_of_cmpSlot {bf : BitVec 3} {l : Bool} (h : fld w start 5 = cmpSlot bf l) : bitAt w (start + 4) = l := by
  obtain ⟨-, -, hl, -⟩ := slot_fields bf l 0 0
  rw [← hl, ← h, bitAt_fld _ (by decide) hs]

theorem fld_of_bhSlot {bh : BitVec 2} (h : fld w start 5 = bhSlot bh) : fld w (start + 3) 2 = bh := by
  obtain ⟨-, -, -, hbh, -⟩ := slot_fields 0 false bh 0
  rw [← hbh, ← h, fld_fld _ (by decide) hs]

theorem fld_of_uSlot {u : BitVec 4} (h : fld w start 5 = uSlot u) : fld w start 4 = u := by
  obtain ⟨-, -, -, -, hu⟩ := slot_fields 0 false 0 u
  rw [← hu, ← h, fld_fld _ (by decide) hs, Nat.add_zero]

end

/-! ## One rule per form: to decode an encoder's word, decode every word with its fields (R142 to R156) -/

section
variable {i : Instr} {op : BitVec 6} {a b c : BitVec 5} {r : Bool}

theorem decode_dForm {d : BitVec 16}
    (h : ∀ w, fld w 0 6 = op → fld w 6 5 = a → fld w 11 5 = b → fld w 16 16 = d → decode w = .ok i) :
    decode (dForm op a b d) = .ok i := by
  obtain ⟨hop, ha, hb, hd, -⟩ := dForm_fields op a b d
  exact h _ hop ha hb hd

theorem decode_dsForm {ds : BitVec 14} {xo : BitVec 2}
    (h : ∀ w, fld w 0 6 = op → fld w 6 5 = a → fld w 11 5 = b → fld w 16 14 = ds → fld w 30 2 = xo → decode w = .ok i) :
    decode (dsForm op a b ds xo) = .ok i := by
  obtain ⟨hop, ha, hb, hds, hxo⟩ := dsForm_fields op a b ds xo
  exact h _ hop ha hb hds hxo

theorem decode_xForm {xo : BitVec 10}
    (h : ∀ w, fld w 0 6 = op → fld w 6 5 = a → fld w 11 5 = b → fld w 16 5 = c → fld w 21 10 = xo → bitAt w 31 = r →
      decode w = .ok i) :
    decode (xForm op a b c xo r) = .ok i := by
  obtain ⟨hop, ha, hb, hc, hxo, hr, -⟩ := xForm_fields op a b c xo r
  exact h _ hop ha hb hc hxo hr

theorem decode_fxmForm {one : Bool} {fxm : BitVec 8} {xo : BitVec 10}
    (h : ∀ w, fld w 0 6 = op → fld w 6 5 = a → bitAt w 11 = one → fld w 12 8 = fxm → fld w 21 10 = xo → decode w = .ok i) :
    decode (fxmForm op a one fxm xo) = .ok i := by
  obtain ⟨hop, ha, hone, hfxm, hxo⟩ := fxmForm_fields op a one fxm xo
  exact h _ hop ha hone hfxm hxo

theorem decode_sprForm {spr xo : BitVec 10}
    (h : ∀ w, fld w 0 6 = op → fld w 6 5 = a → splitSpr w = spr → fld w 21 10 = xo → decode w = .ok i) :
    decode (sprForm op a spr xo) = .ok i := by
  obtain ⟨hop, ha, -, -, hxo⟩ := sprForm_fields op a spr xo
  exact h _ hop ha (sprForm_splitSpr op a spr xo) hxo

/-- The first table of primary opcode 31 reads OE with the extended opcode, the second one without. -/
theorem decode_xoForm {oe : Bool} {xo : BitVec 9}
    (h : ∀ w, fld w 0 6 = op → fld w 6 5 = a → fld w 11 5 = b → fld w 16 5 = c → bitAt w 21 = oe → bitAt w 31 = r →
      fld w 21 10 = BitVec.ofBool oe ++ xo → fld w 22 9 = xo → decode w = .ok i) :
    decode (xoForm op a b c oe xo r) = .ok i := by
  obtain ⟨hop, ha, hb, hc, hoe, -, hxo, hr⟩ := xoForm_fields op a b c oe xo r
  exact h _ hop ha hb hc hoe hr (xoForm_fld_21_10 op a b c oe xo r) hxo

theorem decode_aForm {d xo : BitVec 5}
    (h : ∀ w, fld w 0 6 = op → fld w 6 5 = a → fld w 11 5 = b → fld w 16 5 = c → fld w 21 5 = d → fld w 26 5 = xo →
      bitAt w 31 = r → decode w = .ok i) :
    decode (aForm op a b c d xo r) = .ok i := by
  obtain ⟨hop, ha, hb, hc, hd, hxo, hr⟩ := aForm_fields op a b c d xo r
  exact h _ hop ha hb hc hd hxo hr

theorem decode_mForm {mb me : BitVec 5}
    (h : ∀ w, fld w 0 6 = op → fld w 6 5 = a → fld w 11 5 = b → fld w 16 5 = c → fld w 21 5 = mb → fld w 26 5 = me →
      bitAt w 31 = r → decode w = .ok i) :
    decode (mForm op a b c mb me r) = .ok i := by
  obtain ⟨hop, ha, hb, hc, hmb, hme, hr⟩ := mForm_fields op a b c mb me r
  exact h _ hop ha hb hc hmb hme hr

theorem decode_mdForm {sh mb : BitVec 6} {xo : BitVec 3}
    (h : ∀ w, fld w 0 6 = op → fld w 6 5 = a → fld w 11 5 = b → splitSh w = sh → splitMb w = mb → fld w 27 3 = xo →
      bitAt w 31 = r → decode w = .ok i) :
    decode (mdForm op a b sh mb xo r) = .ok i := by
  obtain ⟨hop, ha, hb, -, -, -, hxo, -, hr⟩ := mdForm_fields op a b sh mb xo r
  exact h _ hop ha hb (mdForm_splitSh op a b sh mb xo r) (mdForm_splitMb op a b sh mb xo r) hxo hr

theorem decode_mdsForm {mb : BitVec 6} {xo : BitVec 4}
    (h : ∀ w, fld w 0 6 = op → fld w 6 5 = a → fld w 11 5 = b → fld w 16 5 = c → splitMb w = mb → fld w 27 3 = fld xo 0 3 →
      fld w 27 4 = xo → bitAt w 31 = r → decode w = .ok i) :
    decode (mdsForm op a b c mb xo r) = .ok i := by
  obtain ⟨hop, ha, hb, hc, -, -, hxo, hxo3, hr⟩ := mdsForm_fields op a b c mb xo r
  exact h _ hop ha hb hc (mdsForm_splitMb op a b c mb xo r) hxo3 hxo hr

end

/-! ## The forms of one instruction -/

theorem decode_bc (bo bi : BitVec 5) (bd : BitVec 14) (aa lk : Bool) :
    decode (bForm 16 bo bi bd aa lk) = .ok (.bc bo bi bd aa lk) := by
  obtain ⟨hop, hbo, hbi, hbd, haa, hlk⟩ := bForm_fields 16 bo bi bd aa lk
  rw [decode, hop, hbo, hbi, hbd, haa, hlk]
  rfl

theorem decode_sc (lev : BitVec 7) (bit30 : Bool) : decode (scForm 17 lev bit30) = .ok (.sc lev bit30) := by
  obtain ⟨hop, hlev, hbit⟩ := scForm_fields 17 lev bit30
  rw [decode, hop, hlev, hbit]
  rfl

theorem decode_b (li : BitVec 24) (aa lk : Bool) : decode (iForm 18 li aa lk) = .ok (.b li aa lk) := by
  obtain ⟨hop, hli, haa, hlk⟩ := iForm_fields 18 li aa lk
  rw [decode, hop, hli, haa, hlk]
  rfl

theorem decode_mtfsf (flm : BitVec 8) (frb : RegNum) (rc : Bool) :
    decode (xflForm 63 flm frb 711 rc) = .ok (.mtfsf flm frb rc) := by
  obtain ⟨hop, hflm, hb, hxo, -, hr⟩ := xflForm_fields 63 flm frb 711 rc
  rw [decode_of_primary63 hop, decode63_of_xForm hxo (by decide), decode63X, hxo, hflm, hb, hr]
  rfl

/-- XS-form: neither value of SH's first bit makes the extended opcode an X-form or XO-form one. -/
theorem decode_sradi (rs ra : RegNum) (sh : BitVec 6) (rc : Bool) :
    decode (xsForm 31 rs ra sh 413 rc) = .ok (.sradi rs ra sh rc) := by
  obtain ⟨hop, ha, hb, -, hxo, -, hr⟩ := xsForm_fields 31 rs ra sh 413 rc
  have hx := xsForm_fld_21_10 31 rs ra sh 413 rc
  have hxo9 := xsForm_fld_22_9 31 rs ra sh 413 rc
  have first : decode31 (xsForm 31 rs ra sh 413 rc) = decode31Xo (xsForm 31 rs ra sh 413 rc) := by
    rw [decode31, hx]
    obtain h0 | h1 := BitVec.eq_zero_or_eq_one (fld sh 0 1)
    · rw [h0]; rfl
    · rw [h1]; rfl
  have second : decode31Xo (xsForm 31 rs ra sh 413 rc) = decode31Xs (xsForm 31 rs ra sh 413 rc) := by
    rw [decode31Xo, hxo9]
    obtain h0 | h1 := BitVec.eq_zero_or_eq_one (fld sh 0 1)
    · rw [h0]; rfl
    · rw [h1]; rfl
  rw [decode_of_primary31 hop, first, second, decode31Xs, hxo, ha, hb, hr, xsForm_splitSh]
  rfl

end Sys2Proof.Machine
end

section
/-!
PROOFS, family 30_encoding.md.  Decoding what the encoder writes, known words (O1, O2), and the instructions of an absent group
(O36).
-/
namespace Sys2Proof.Machine

/-! ## Decoding what the encoder writes -/

/-- Settles O2: an encoder's word has the fields of its form, and a word with these fields is in the arm of its opcodes. -/
theorem decodeOfEncode : Obligations.DecodeOfEncode := by
  intro i
  cases i
  -- D-form
  case tdi | twi | mulli | subfic | addic | addicRec | addi | addis | ori | oris | xori | xoris | andiRec | andisRec |
      lwz | lwzu | lbz | lbzu | stw | stwu | stb | stbu | lhz | lhzu | lha | lhau | sth | sthu | lmw | stmw |
      lfs | lfsu | lfd | lfdu | stfs | stfsu | stfd | stfdu =>
    refine decode_dForm ?_
    rintro w hop rfl rfl rfl
    rw [decode, hop]; rfl
  case cmpli | cmpi =>
    refine decode_dForm ?_
    rintro w hop ha rfl rfl
    rw [decode, hop, ← fld_of_cmpSlot (by decide) ha, ← bitAt_of_cmpSlot (by decide) ha]; rfl
  -- B-form, SC-form, I-form
  case bc bo bi bd aa lk => exact decode_bc bo bi bd aa lk
  case sc lev bit30 => exact decode_sc lev bit30
  case b li aa lk => exact decode_b li aa lk
  -- XL-form
  case crnor | crandc | crxor | crnand | crand | creqv | crorc | cror =>
    refine decode_xForm ?_
    rintro w hop rfl rfl rfl hxo -
    rw [decode_of_primary19 hop, decode19, hxo]; rfl
  case bclr | bcctr =>
    refine decode_xForm ?_
    rintro w hop rfl rfl hc hxo rfl
    rw [decode_of_primary19 hop, decode19, hxo, ← fld_of_bhSlot (by decide) hc]; rfl
  case mcrf =>
    refine decode_xForm ?_
    rintro w hop ha hb - hxo -
    rw [decode_of_primary19 hop, decode19, hxo, ← fld_of_bfSlot (by decide) ha, ← fld_of_bfSlot (by decide) hb]; rfl
  -- M-form
  case rlwimi | rlwinm | rlwnm =>
    refine decode_mForm ?_
    rintro w hop rfl rfl rfl rfl rfl rfl
    rw [decode, hop]; rfl
  -- MD-form, MDS-form
  case rldicl | rldicr | rldic | rldimi =>
    refine decode_mdForm ?_
    rintro w hop rfl rfl rfl rfl hxo rfl
    rw [decode_of_primary30 hop, decode30, hxo]; rfl
  case rldcl | rldcr =>
    refine decode_mdsForm ?_
    rintro w hop rfl rfl rfl rfl hxo3 hxo rfl
    have mds : decode30 w = decode30Mds w := by rw [decode30, hxo3]; rfl
    rw [decode_of_primary30 hop, mds, decode30Mds, hxo]; rfl
  -- X-form of primary opcode 31
  case tw | ldx | lwzx | ldux | lwzux | td | lbzx | lbzux | stdx | stwx | stdux | stwux | stbx | stbux | lhzx | lhzux |
      lwax | lhax | lwaux | lhaux | sthx | sthux | lswx | lwbrx | lfsx | lfsux | lswi | lfdx | lfdux | stswx | stwbrx |
      stfsx | stfsux | stswi | stfdx | stfdux | lhbrx | sthbrx | stfiwx =>
    refine decode_xForm ?_
    rintro w hop rfl rfl rfl hxo -
    rw [decode_of_primary31 hop, decode31, hxo]; rfl
  case slw | sld | and | andc | nor | eqv | xor | orc | or | nand | srw | srd | sraw | srad | srawi =>
    refine decode_xForm ?_
    rintro w hop rfl rfl rfl hxo rfl
    rw [decode_of_primary31 hop, decode31, hxo]; rfl
  case cntlzw | cntlzd | extsh | extsb | extsw =>
    refine decode_xForm ?_
    rintro w hop rfl rfl - hxo rfl
    rw [decode_of_primary31 hop, decode31, hxo]; rfl
  case popcntb =>
    refine decode_xForm ?_
    rintro w hop rfl rfl - hxo -
    rw [decode_of_primary31 hop, decode31, hxo]; rfl
  case cmp | cmpl =>
    refine decode_xForm ?_
    rintro w hop ha rfl rfl hxo -
    rw [decode_of_primary31 hop, decode31, hxo, ← fld_of_cmpSlot (by decide) ha, ← bitAt_of_cmpSlot (by decide) ha]; rfl
  case mcrxr =>
    refine decode_xForm ?_
    rintro w hop ha - - hxo -
    rw [decode_of_primary31 hop, decode31, hxo, ← fld_of_bfSlot (by decide) ha]; rfl
  -- XFX-form
  case mfspr | mtspr =>
    refine decode_sprForm ?_
    rintro w hop rfl rfl hxo
    rw [decode_of_primary31 hop, decode31, hxo]; rfl
  case mfcr | mfocrf =>
    refine decode_fxmForm ?_
    rintro w hop rfl hone hfxm hxo
    have arm : decode31 w = decodeMfcr w := by rw [decode31, hxo]; rfl
    rw [decode_of_primary31 hop, arm, decodeMfcr, hone, hfxm]; rfl
  case mtcrf | mtocrf =>
    refine decode_fxmForm ?_
    rintro w hop rfl hone rfl hxo
    have arm : decode31 w = decodeMtcrf w := by rw [decode31, hxo]; rfl
    rw [decode_of_primary31 hop, arm, decodeMtcrf, hone]; rfl
  -- XO-form
  case subfc | addc | subf | subfe | adde | mulld | mullw | add | divdu | divwu | divd | divw =>
    refine decode_xoForm ?_
    rintro w hop rfl rfl rfl hoe rfl hx hxo
    rw [decode_of_primary31 hop, decode31_of_xoForm hx (by decide), decode31Xo, hxo, hoe]; rfl
  case neg | subfze | addze | subfme | addme =>
    refine decode_xoForm ?_
    rintro w hop rfl rfl - hoe rfl hx hxo
    rw [decode_of_primary31 hop, decode31_of_xoForm hx (by decide), decode31Xo, hxo, hoe]; rfl
  case mulhdu | mulhwu | mulhd | mulhw =>
    refine decode_xoForm ?_
    rintro w hop rfl rfl rfl - rfl hx hxo
    rw [decode_of_primary31 hop, decode31_of_xoForm hx (by decide), decode31Xo, hxo]; rfl
  -- XS-form
  case sradi rs ra sh rc => exact decode_sradi rs ra sh rc
  -- DS-form
  case ld | ldu | lwa =>
    refine decode_dsForm ?_
    rintro w hop rfl rfl rfl hxo
    rw [decode_of_primary58 hop, decode58, hxo]; rfl
  case std | stdu =>
    refine decode_dsForm ?_
    rintro w hop rfl rfl rfl hxo
    rw [decode_of_primary62 hop, decode62, hxo]; rfl
  -- A-form
  case fdivs | fsubs | fadds =>
    refine decode_aForm ?_
    rintro w hop rfl rfl rfl - hxo rfl
    rw [decode_of_primary59 hop, decode59, hxo]; rfl
  case fsqrts | fres | frsqrtes =>
    refine decode_aForm ?_
    rintro w hop rfl - rfl - hxo rfl
    rw [decode_of_primary59 hop, decode59, hxo]; rfl
  case fmuls =>
    refine decode_aForm ?_
    rintro w hop rfl rfl - rfl hxo rfl
    rw [decode_of_primary59 hop, decode59, hxo]; rfl
  case fmsubs | fmadds | fnmsubs | fnmadds =>
    refine decode_aForm ?_
    rintro w hop rfl rfl rfl rfl hxo rfl
    rw [decode_of_primary59 hop, decode59, hxo]; rfl
  case fdiv | fsub | fadd =>
    refine decode_aForm ?_
    rintro w hop rfl rfl rfl - hxo rfl
    rw [decode_of_primary63 hop, decode63, hxo]; rfl
  case fsqrt | fre | frsqrte =>
    refine decode_aForm ?_
    rintro w hop rfl - rfl - hxo rfl
    rw [decode_of_primary63 hop, decode63, hxo]; rfl
  case fmul =>
    refine decode_aForm ?_
    rintro w hop rfl rfl - rfl hxo rfl
    rw [decode_of_primary63 hop, decode63, hxo]; rfl
  case fsel | fmsub | fmadd | fnmsub | fnmadd =>
    refine decode_aForm ?_
    rintro w hop rfl rfl rfl rfl hxo rfl
    rw [decode_of_primary63 hop, decode63, hxo]; rfl
  -- X-form of primary opcode 63, XFL-form
  case frsp | fctiw | fctiwz | fneg | fmr | fnabs | fabs | fctid | fctidz | fcfid =>
    refine decode_xForm ?_
    rintro w hop rfl - rfl hxo rfl
    rw [decode_of_primary63 hop, decode63_of_xForm hxo (by decide), decode63X, hxo]; rfl
  case mtfsb0 | mtfsb1 | mffs =>
    refine decode_xForm ?_
    rintro w hop rfl - - hxo rfl
    rw [decode_of_primary63 hop, decode63_of_xForm hxo (by decide), decode63X, hxo]; rfl
  case fcmpu | fcmpo =>
    refine decode_xForm ?_
    rintro w hop ha rfl rfl hxo -
    rw [decode_of_primary63 hop, decode63_of_xForm hxo (by decide), decode63X, hxo, ← fld_of_bfSlot (by decide) ha]; rfl
  case mcrfs =>
    refine decode_xForm ?_
    rintro w hop ha hb - hxo -
    rw [decode_of_primary63 hop, decode63_of_xForm hxo (by decide), decode63X, hxo, ← fld_of_bfSlot (by decide) ha,
      ← fld_of_bfSlot (by decide) hb]; rfl
  case mtfsfi =>
    refine decode_xForm ?_
    rintro w hop ha - hc hxo rfl
    rw [decode_of_primary63 hop, decode63_of_xForm hxo (by decide), decode63X, hxo, ← fld_of_bfSlot (by decide) ha,
      ← fld_of_uSlot (by decide) hc]; rfl
  case mtfsf flm frb rc => exact decode_mtfsf flm frb rc

/-- A word that the encoder writes decodes. -/
theorem decode_of_encode_eq {w : Word} {i : Instr} (h : encode i = w) : decode w = .ok i := by
  rw [← h, decodeOfEncode i]

theorem decode_of_unusedPrimary {w : Word} (h : (fld w 0 6).toNat ∈ [1, 4, 5, 6, 57, 60, 61]) :
    decode w = .error .unusedPrimary := by
  rw [decode]
  generalize (fld w 0 6).toNat = n at h
  fin_cases h
  all_goals rfl

/-- Settles O1: each word is the encoder's, the word of zeros and the unused primary opcodes have their own arms. -/
theorem knownWordsDecode : Obligations.KnownWordsDecode :=
  ⟨decode_of_encode_eq (by decide), decode_of_encode_eq (by decide), decode_of_encode_eq (by decide),
    decode_of_encode_eq (by decide), decode_of_encode_eq (by decide), decode_of_encode_eq (by decide),
    decode_of_encode_eq (by decide), decode_of_encode_eq (by decide), rfl, fun _ => decode_of_unusedPrimary⟩

/-! ## Optional instructions that are not provided (49_optional.md R670) -/

theorem raisesIllegal_of_absent {provided : Bool} (h : provided = false) (s : State) (r : Res) :
    RaisesIllegal (if !provided then raiseIllegal s else r) s := by
  subst h
  exact raiseIllegal_spec s

/-- Settles O36: each instruction begins with the test of its group. -/
theorem absentInstructionsAreIllegal : Obligations.AbsentInstructionsAreIllegal := by
  intro s a b c d fxm bf rc
  exact ⟨fun h => ⟨raisesIllegal_of_absent h s _, raisesIllegal_of_absent h s _⟩, fun h => raisesIllegal_of_absent h s _,
    fun h => ⟨raisesIllegal_of_absent h s _, raisesIllegal_of_absent h s _⟩,
    fun h => ⟨raisesIllegal_of_absent h s _, raisesIllegal_of_absent h s _, raisesIllegal_of_absent h s _,
      raisesIllegal_of_absent h s _, raisesIllegal_of_absent h s _⟩⟩

end Sys2Proof.Machine
end

section
/-!
PROOFS, family 40_branch.md.  Where a step begins (O3), System Call (O12), the branches (O11), and the Condition Register
instructions (O13).
-/
namespace Sys2Proof.Machine

/-- The last field of a register is its low-order part. -/
theorem fld_eq_setWidth {w start len : Nat} (x : BitVec w) (h : start + len = w) : fld x start len = x.setWidth len := by
  have hs : w - start - len = 0 := by omega
  rw [fld, hs, BitVec.setWidth_eq_extractLsb' (by omega)]

/-! ## Where a step begins (60_exceptions.md R725) -/

/-- A step that passes its checks fetches. -/
theorem step_of_fetched {s : State} (he : s.event = none) (hw : s.wellFormed = true)
    (ha : s.available .fetch s.pc 4 = true) (hm : s.fetchModified = false) : step s = stepWord s.fetchWord s.inRun := by
  rw [step, he, hw, ha, hm]
  rfl

theorem stepWord_of_decoded {w : Word} {i : Instr} (h : decode w = .ok i) (s : State) :
    stepWord w s = exec i (s.setInsn w) := by
  rw [stepWord, h]

/-- Settles O3: the checks pass, then the decoded arm. -/
theorem stepRunsDecodedInstruction : Obligations.StepRunsDecodedInstruction := fun s _ he hw ha hm hd =>
  (step_of_fetched he hw ha hm).trans (stepWord_of_decoded hd s.inRun)

/-! ## System Call (R211) -/

/-- Settles O12: the level is the last bit of LEV. -/
theorem systemCallResult : Obligations.SystemCallResult := by
  intro s lev
  refine ⟨?_, raiseIllegal_spec s⟩
  rw [← fld_eq_setWidth lev (start := 6) rfl]
  rfl

/-! ## Branches (R203 to R206, R209, R210, R220, R221) -/

/-- CTR after a conditional branch (R205). -/
def State.branchCtr (s : State) (bo : BitVec 5) : DWord := if bitAt bo 2 then s.ctr else s.ctr - 1

/-- A count is 0, in 32-bit mode its low word (R205). -/
def State.countIsZero (s : State) (n : DWord) : Bool := if s.env.mode64 then decide (n = 0) else decide (fld n 32 32 = 0)

/-- A conditional branch is taken: CTR after the decrement and CR[BI] are as BO asks (R205, R206). -/
def State.branchTaken (s : State) (bo bi : BitVec 5) : Bool :=
  (bitAt bo 2 || s.countIsZero (s.branchCtr bo) == bitAt bo 3) && (bitAt bo 0 || s.crBit bi == bitAt bo 1)

theorem State.countDown_eq (s : State) (bo : BitVec 5) : s.countDown bo = { s with ctr := s.branchCtr bo } := by
  rw [State.countDown, State.branchCtr]
  cases bitAt bo 2
  · rfl
  · rfl

theorem State.ctrNonzero_eq (s : State) : s.ctrNonzero = !s.countIsZero s.ctr := by
  rw [State.ctrNonzero, lowWord, ← fld_eq_setWidth s.ctr (start := 32) rfl, State.countIsZero]
  cases s.env.mode64
  · rfl
  · rfl

theorem State.ctrOk_eq (s : State) (bo : BitVec 5) :
    s.ctrOk bo = (bitAt bo 2 || s.countIsZero s.ctr == bitAt bo 3) := by
  rw [State.ctrOk, State.ctrNonzero_eq, Bool.xor, Bool.not_bne, bne, Bool.not_not]

/-- What bc, bclr and bcctr share: the test is made on the state after the decrement. -/
theorem branchTo_conditional (s : State) (bo bi : BitVec 5) (target : DWord) (lk : Bool) :
    branchTo ((s.countDown bo).ctrOk bo && (s.countDown bo).condOk bo bi) ((s.countDown bo).iea target) lk
        (s.countDown bo) =
      .next { s with
        ctr := s.branchCtr bo, lr := if lk then s.nextPc else s.lr,
        pc := if s.branchTaken bo bi then s.iea target else s.nextPc } := by
  rw [branchTo_eq, State.ctrOk_eq, State.countDown_eq]
  rfl

theorem State.branchTarget_eq (s : State) (aa : Bool) (disp : DWord) :
    s.branchTarget aa disp = s.iea ((if aa then 0 else s.pc) + disp) := by
  cases aa
  · rfl
  · exact congrArg s.iea (BitVec.zero_add disp).symm

/-- A valid bcctr is the conditional branch to CTR that does not count. -/
theorem execBcctr_of_valid {bo : BitVec 5} (h : bitAt bo 2 = true) (bi : BitVec 5) (bh : BitVec 2) (lk : Bool) (s : State) :
    execBcctr bo bi bh lk s =
      branchTo ((s.countDown bo).ctrOk bo && (s.countDown bo).condOk bo bi) ((s.countDown bo).iea s.ctr) lk
        (s.countDown bo) := by
  rw [execBcctr, bcctrInvalid, State.ctrOk, State.countDown, h]
  rfl

theorem execBcctr_of_invalid {bo : BitVec 5} (h : bitAt bo 2 = false) (bi : BitVec 5) (bh : BitVec 2) (lk : Bool)
    (s : State) : RaisesIllegal (execBcctr bo bi bh lk s) s := by
  rw [execBcctr, bcctrInvalid, h]
  exact raiseIllegal_spec s

/-- Settles O11: b always branches, a valid bcctr does not count, and the decrement leaves pc and LR to be read after it. -/
theorem branchResults : Obligations.BranchResults := by
  intro s li bo bi bd bh aa lk ctr atZero taken lr goes base
  have hb : execB li aa lk s = .next { s with lr := lr, pc := s.iea (base + liDisp li) } := by
    rw [execB, branchTo_eq, State.branchTarget_eq]
    rfl
  have hbc : execBc bo bi bd aa lk s = .next (goes (base + bdDisp bd)) := by
    have hpc : (s.countDown bo).pc = s.pc := by rw [State.countDown_eq]
    rw [execBc, State.branchTarget_eq, hpc]
    exact branchTo_conditional s bo bi _ lk
  have hbclr : execBclr bo bi bh lk s = .next (goes s.lr) := by
    have hlr : (s.countDown bo).lr = s.lr := by rw [State.countDown_eq]
    rw [execBclr, hlr]
    exact branchTo_conditional s bo bi s.lr lk
  exact ⟨hb, hbc, hbclr, fun h => (execBcctr_of_valid h bi bh lk s).trans (branchTo_conditional s bo bi s.ctr lk),
    fun h => execBcctr_of_invalid h bi bh lk s⟩

/-! ## Condition Register instructions (R212 to R219, R222) -/

theorem State.crBit_setCrBit (s : State) (i j : BitVec 5) (v : Bool) :
    (s.setCrBit i v).crBit j = if j = i then v else s.crBit j := by
  refine (bitAt_setBitAt s.cr v j.isLt i.isLt).trans ?_
  simp only [BitVec.toNat_inj]
  rfl

/-- The instruction completes: `v` in CR bit `bt`, nothing else. -/
def WritesCrBit (res : Res) (s : State) (bt : BitVec 5) (v : Bool) : Prop :=
  ∃ t, res = .next t ∧ t.crBit bt = v ∧ (∀ i, i ≠ bt → t.crBit i = s.crBit i) ∧ t = { s with cr := t.cr, pc := s.nextPc }

theorem crLogical_writesCrBit (f : Bool → Bool → Bool) (bt ba bb : BitVec 5) (s : State) :
    WritesCrBit (crLogical f bt ba bb s) s bt (f (s.crBit ba) (s.crBit bb)) :=
  ⟨_, rfl, (s.crBit_setCrBit bt bt _).trans (if_pos rfl), fun i hi => (s.crBit_setCrBit bt i _).trans (if_neg hi), rfl⟩

/-- mcrf (R222). -/
theorem execMcrf_spec (bf bfa : BitVec 3) (s : State) :
    ∃ t, execMcrf bf bfa s = .next t ∧ t.crField bf = s.crField bfa ∧ s.OtherCrFields t bf ∧
      t = { s with cr := t.cr, pc := s.nextPc } :=
  ⟨(s.setCrField bf (s.crField bfa)).advance, rfl, (s.crField_setCrField bf bf _).trans (if_pos rfl),
    s.otherCrFields_setCrField bf _, rfl⟩

/-- Settles O13: the logical instructions share `crLogical`, each with its own function of two bits. -/
theorem conditionRegisterResults : Obligations.ConditionRegisterResults := by
  intro s bt ba bb bf bfa bit a b
  have logical : ∀ f : Bool → Bool → Bool, bit (crLogical f bt ba bb s) (f a b) := fun f =>
    crLogical_writesCrBit f bt ba bb s
  have creqv : bit (execCreqv bt ba bb s) (a == b) := by
    have h : (!(a ^^ b)) = (a == b) := Bool.not_not _
    rw [← h]
    exact logical fun a b => !(a ^^ b)
  exact ⟨logical fun a b => a && b, logical fun a b => a || b, logical fun a b => a ^^ b, logical fun a b => !(a && b),
    logical fun a b => !(a || b), creqv, logical fun a b => a && !b, logical fun a b => a || !b, execMcrf_spec bf bfa s⟩

end Sys2Proof.Machine
end

section
/-!
PROOFS, family 42_fx_multiple_string.md.  What the transfers of several units read and write: the stores, of bytes or
of words, are one run of stored bytes; the loads are described register by register.
-/
namespace Sys2Proof.Machine

/-! ## Registers counted from a first one, modulo 32 (R310) -/

/-- A register is the last of those counted from the next one up. -/
theorem regOffset_succ_self (r : RegNum) : (r - (r + 1)).toNat = 31 := by
  have one : (1 : RegNum).toNat = 1 := rfl
  rw [BitVec.toNat_sub, BitVec.toNat_add, one]
  omega

/-- Every other register is one nearer to the next one. -/
theorem regOffset_of_ne {r q : RegNum} (h : q ≠ r) : (q - r).toNat = (q - (r + 1)).toNat + 1 := by
  have one : (1 : RegNum).toNat = 1 := rfl
  have apart : q.toNat ≠ r.toNat := fun e => h (BitVec.toNat_inj.mp e)
  rw [BitVec.toNat_sub, BitVec.toNat_sub, BitVec.toNat_add, one]
  omega

/-- From RT to 31 nothing wraps. -/
theorem regOffset_lt_regsTo31_iff (r q : RegNum) : (q - r).toNat < regsTo31 r ↔ r.toNat ≤ q.toNat := by
  rw [regsTo31, BitVec.toNat_sub]
  omega

theorem regOffset_of_le {r q : RegNum} (h : r.toNat ≤ q.toNat) : (q - r).toNat = q.toNat - r.toNat := by
  rw [BitVec.toNat_sub]
  omega

/-- A byte of a string lies in the low-order word. -/
theorem stringBit_bounds (j : Nat) : 0 + 32 ≤ stringBit j ∧ stringBit j + 8 ≤ 64 := by
  unfold stringBit
  omega

/-- A byte of the low-order word after byte `j` of a string is put into the register. -/
theorem fld_setFld_stringBit (x : DWord) (b : Byte) {i : Nat} (hi : i < 4) (j : Nat) :
    fld (setFld x (stringBit j) b) (32 + 8 * i) 8 = if i = j % 4 then b else fld x (32 + 8 * i) 8 := by
  obtain ⟨-, high⟩ := stringBit_bounds j
  split
  next h =>
    subst h
    exact fld_setFld_same x b high
  next h => exact fld_setFld_disjoint x b high (by omega) (by unfold stringBit; omega)

theorem eq_stringReg_iff {r q : RegNum} {j : Nat} (hj : j < 128) : q = stringReg r j ↔ (q - r).toNat = j / 4 := by
  rw [stringReg, ← BitVec.toNat_inj, BitVec.toNat_sub, BitVec.toNat_add, BitVec.toNat_ofNat]
  omega

theorem add_regOffset (r q : RegNum) : r + BitVec.ofNat 5 (q - r).toNat = q := by
  rw [BitVec.ofNat_toNat, BitVec.setWidth_eq, BitVec.add_comm, BitVec.sub_add_cancel]

/-! ## The checks passed (R301) -/

section
variable {s : State} {kind : AccessKind} {ea : DWord} {count : Nat} (hle : s.env.le = false) (k : Unit → Res)
include hle

theorem checkedMultiple_of_available {words : Bool} (ha : (words && s.alignFaultMultiple (s.trunc ea)) = false)
    (hv : ∀ j, j < count → s.available kind (ea + BitVec.ofNat 64 ((if words then 4 else 1) * j))
      (if words then 4 else 1) = true) : checkedMultiple kind words ea count s k = k () := by
  rw [checkedMultiple, if_neg (Bool.eq_false_iff.mp hle), if_neg (Bool.eq_false_iff.mp ha),
    (s.firstDenied_eq_none kind _ ea count).mpr hv]

theorem checkedMultiple_of_words_available (ha : s.alignFaultMultiple (s.trunc ea) = false)
    (hv : ∀ j, j < count → s.available kind (ea + BitVec.ofNat 64 (4 * j)) 4 = true) :
    checkedMultiple kind true ea count s k = k () :=
  checkedMultiple_of_available hle k ha hv

theorem checkedMultiple_of_bytes_available
    (hv : ∀ j, j < count → s.available kind (ea + BitVec.ofNat 64 j) 1 = true) :
    checkedMultiple kind false ea count s k = k () :=
  checkedMultiple_of_available hle k (words := false) rfl fun j hj => (Nat.one_mul j).symm ▸ hv j hj

end

/-! ## Bytes of a run (20_memory.md R94) -/

theorem add_ofNat_succ (ea : DWord) (j : Nat) : ea + BitVec.ofNat 64 (j + 1) = ea + BitVec.ofNat 64 j + 1 := by
  rw [BitVec.ofNat_add, ← BitVec.add_assoc]
  rfl

theorem add_four_add_ofNat (ea : DWord) (j : Nat) : ea + 4 + BitVec.ofNat 64 j = ea + BitVec.ofNat 64 (j + 4) := by
  rw [Nat.add_comm, BitVec.ofNat_add, ← BitVec.add_assoc]
  rfl

theorem State.getElem?_loadBytes (s : State) (ea : DWord) {n j : Nat} (h : j < n) :
    (s.loadBytes ea n)[j]? = some (s.byteAt (ea + BitVec.ofNat 64 j)) := by
  induction n generalizing ea j with
  | zero => exact absurd h (Nat.not_lt_zero j)
  | succ n ih =>
    cases j with
    | zero => simp [State.loadBytes]
    | succ j =>
      rw [State.loadBytes, List.getElem?_cons_succ, ih _ (by omega), Nat.add_comm j, BitVec.ofNat_add, BitVec.add_assoc]
      rfl

/-- A run of bytes stored within the address space reads back byte by byte. -/
theorem State.byteAt_storeBytes (s : State) (ea : DWord) {bs : List Byte} {j : Nat} {b : Byte} (hw : s.mem.wf = true)
    (hl : bs.length ≤ 2 ^ 32) (hb : bs[j]? = some b) :
    (s.storeBytes ea bs).byteAt (ea + BitVec.ofNat 64 j) = b := by
  obtain ⟨hj, -⟩ := List.getElem?_eq_some_iff.mp hb
  have read := (s.storeBytes ea bs).getElem?_loadBytes ea hj
  rw [s.loadBytes_storeBytes ea bs hw hl, hb] at read
  exact (Option.some.inj read).symm

theorem State.byteAt_setGpr (s : State) (r : RegNum) (v a : DWord) : (s.setGpr r v).byteAt a = s.byteAt a :=
  State.byteAt_congr (s := s) (t := s.setGpr r v) rfl rfl a

theorem State.memRead_setGpr (s : State) (r : RegNum) (v a : DWord) (n : Nat) :
    (s.setGpr r v).memRead a n = s.memRead a n :=
  State.memRead_congr (s := s) (t := s.setGpr r v) rfl rfl a n

theorem State.bigEndianValue_four (s : State) (ea : DWord) : s.bigEndianValue ea 4 =
    (s.byteAt (ea + BitVec.ofNat 64 0)).toNat * 256 ^ 3 + (s.byteAt (ea + BitVec.ofNat 64 1)).toNat * 256 ^ 2 +
      (s.byteAt (ea + BitVec.ofNat 64 2)).toNat * 256 + (s.byteAt (ea + BitVec.ofNat 64 3)).toNat := by
  rw [add_ofNat_succ ea 2, add_ofNat_succ ea 1, add_ofNat_succ ea 0, BitVec.add_zero]
  simp only [State.bigEndianValue]
  omega

/-- The low-order word of a register is its last four bytes. -/
theorem lowWord_toNat_eq_bytes (v : DWord) : (lowWord v).toNat =
    (fld v 32 8).toNat * 256 ^ 3 + (fld v 40 8).toNat * 256 ^ 2 + (fld v 48 8).toNat * 256 + (fld v 56 8).toNat := by
  have hv : v.toNat % 2 ^ 32 = byteOf v.toNat 3 * 256 ^ 3 + byteOf v.toNat 2 * 256 ^ 2 + byteOf v.toNat 1 * 256 +
      byteOf v.toNat 0 := by
    simp only [byteOf]
    omega
  rw [lowWord, BitVec.toNat_setWidth, hv, ← fld_byte_toNat v (k := 0) (by decide),
    ← fld_byte_toNat v (k := 1) (by decide), ← fld_byte_toNat v (k := 2) (by decide),
    ← fld_byte_toNat v (k := 3) (by decide)]

/-! ## String stores (R313, R314) -/

/-- Byte `j` of the string in the registers from `r` up (R310). -/
def State.stringByte (s : State) (r : RegNum) (j : Nat) : Byte := fld (s.gprOf (stringReg r j)) (stringBit j) 8

/-- A string store stores its bytes as one run. -/
theorem State.storeString_eq_storeBytes (s : State) (r : RegNum) (ea : DWord) (j n : Nat) :
    s.storeString r ea j n = s.storeBytes (ea + BitVec.ofNat 64 j) ((List.range' j n).map (s.stringByte r)) := by
  induction n generalizing s j with
  | zero => rfl
  | succ n ih =>
    rw [State.storeString, ih, add_ofNat_succ, List.range'_succ, List.map_cons, State.storeBytes]
    rfl

/-! ## String loads (R311, R312) -/

theorem fld_zero {w : Nat} (start len : Nat) : fld (0 : BitVec w) start len = 0 := BitVec.extractLsb'_zero

section
variable (s : State) (r q : RegNum)

theorem State.gprOf_clearRegs (n : Nat) :
    (s.clearRegs r n).gprOf q = if (q - r).toNat < n then 0 else s.gprOf q := by
  induction n generalizing s r with
  | zero => rfl
  | succ n ih =>
    rw [State.clearRegs, ih, State.gprOf_setGpr]
    by_cases h : q = r
    · simp [h]
    · simp only [if_neg h, regOffset_of_ne h, Nat.add_lt_add_iff_right]

/-- The registers that `n` bytes occupy are cleared (R311). -/
theorem State.gprOf_clearRegs_regsForBytes (n : Nat) :
    (s.clearRegs r (regsForBytes n)).gprOf q = if 4 * (q - r).toNat < n then 0 else s.gprOf q := by
  have occupied : (q - r).toNat < regsForBytes n ↔ 4 * (q - r).toNat < n := by
    rw [regsForBytes]
    omega
  simp only [State.gprOf_clearRegs, occupied]

variable (ea : DWord)

/-- A register past the last byte keeps what it held. -/
theorem State.gprOf_loadString_other {j n : Nat} (hn : j + n ≤ 128) (h : j + n ≤ 4 * (q - r).toNat) :
    (s.loadString r ea j n).gprOf q = s.gprOf q := by
  induction n generalizing s j with
  | zero => rfl
  | succ n ih =>
    have other : q ≠ stringReg r j := fun e => by
      have := (eq_stringReg_iff (by omega)).mp e
      omega
    rw [State.loadString, ih _ (by omega) (by omega), State.gprOf_setGpr_other _ _ other]

/-- The high-order word of a register is left alone. -/
theorem State.highWord_loadString (j n : Nat) : fld ((s.loadString r ea j n).gprOf q) 0 32 = fld (s.gprOf q) 0 32 := by
  induction n generalizing s j with
  | zero => rfl
  | succ n ih =>
    rw [State.loadString, ih, State.gprOf_setGpr]
    split
    next h =>
      subst h
      obtain ⟨low, high⟩ := stringBit_bounds j
      exact fld_setFld_disjoint _ _ high (by decide) (.inl low)
    next => rfl

/-- Byte `j` of a string goes to one byte of one register; the others keep theirs. -/
theorem State.byte_setGpr_stringReg (b : Byte) {i j : Nat} (hi : i < 4) (hj : j < 128) :
    fld ((s.setGpr (stringReg r j) (setFld (s.gprOf (stringReg r j)) (stringBit j) b)).gprOf q) (32 + 8 * i) 8 =
      if 4 * (q - r).toNat + i = j then b else fld (s.gprOf q) (32 + 8 * i) 8 := by
  have here := eq_stringReg_iff (r := r) (q := q) hj
  rw [State.gprOf_setGpr]
  by_cases hq : q = stringReg r j
  · have offset := here.mp hq
    have place : i = j % 4 ↔ 4 * (q - r).toNat + i = j := by omega
    rw [if_pos hq, ← hq, fld_setFld_stringBit _ _ hi]
    simp only [place]
  · rw [if_neg hq, if_neg fun h => hq (here.mpr (by omega))]

/-- Byte `i` of the low-order word of a register: the byte of the string that belongs there, if it is transferred. -/
theorem State.byte_loadString {i j n : Nat} (hi : i < 4) (hn : j + n ≤ 128) :
    fld ((s.loadString r ea j n).gprOf q) (32 + 8 * i) 8 =
      if j ≤ 4 * (q - r).toNat + i ∧ 4 * (q - r).toNat + i < j + n then
        s.byteAt (ea + BitVec.ofNat 64 (4 * (q - r).toNat + i))
      else fld (s.gprOf q) (32 + 8 * i) 8 := by
  induction n generalizing s j with
  | zero => exact (if_neg (by omega)).symm
  | succ n ih =>
    rw [State.loadString, ih _ (by omega), State.byteAt_setGpr, State.byte_setGpr_stringReg s r q _ hi (by omega)]
    by_cases h : 4 * (q - r).toNat + i = j
    · rw [if_neg (by omega), if_pos h, if_pos (by omega), h]
    · have later : (j + 1 ≤ 4 * (q - r).toNat + i ∧ 4 * (q - r).toNat + i < j + 1 + n) ↔
          (j ≤ 4 * (q - r).toNat + i ∧ 4 * (q - r).toNat + i < j + (n + 1)) := by omega
      simp only [later, if_neg h]

end

/-! ## Words (R307, R308) -/

/-- Each of `n` registers takes its word; with no more than 32 of them none is loaded twice. -/
theorem State.gprOf_loadWords (s : State) (r q : RegNum) (ea : DWord) {n : Nat} (hn : n ≤ 32) :
    (s.loadWords r ea n).gprOf q =
      if (q - r).toNat < n then s.memRead (ea + BitVec.ofNat 64 (4 * (q - r).toNat)) 4 else s.gprOf q := by
  induction n generalizing s r ea with
  | zero => rfl
  | succ n ih =>
    rw [State.loadWords, ih _ _ _ (by omega), State.gprOf_setGpr, State.memRead_setGpr]
    by_cases h : q = r
    · rw [h, regOffset_succ_self, BitVec.sub_self, if_neg (by omega), if_pos rfl]
      exact (congrArg (s.memRead · 4) (BitVec.add_zero ea)).symm
    · simp only [if_neg h, regOffset_of_ne h, Nat.add_lt_add_iff_right, Nat.mul_succ, add_four_add_ofNat]

/-- Up to register 31 the offset of a register is the difference of the numbers. -/
theorem State.gprOf_loadWords_regsTo31 (s : State) (r q : RegNum) (ea : DWord) :
    (s.loadWords r ea (regsTo31 r)).gprOf q =
      if q.toNat < r.toNat then s.gprOf q
      else s.memRead (ea + BitVec.ofNat 64 (4 * (q.toNat - r.toNat))) 4 := by
  rw [s.gprOf_loadWords r q ea (n := regsTo31 r) (Nat.sub_le ..)]
  simp only [regOffset_lt_regsTo31_iff]
  by_cases h : r.toNat ≤ q.toNat
  · rw [if_pos h, if_neg (Nat.not_lt.mpr h), regOffset_of_le h]
  · rw [if_neg h, if_pos (Nat.not_le.mp h)]

theorem stringReg_add_four (r : RegNum) (j : Nat) : stringReg r (j + 4) = stringReg (r + 1) j := by
  rw [stringReg, stringReg, Nat.add_div_right j (by decide), Nat.add_comm, BitVec.ofNat_add, ← BitVec.add_assoc]
  rfl

theorem stringBit_add_four (j : Nat) : stringBit (j + 4) = stringBit j := by
  rw [stringBit, stringBit, Nat.add_mod_right]

/-- A string store from byte 4 on is one of the registers from the next up. -/
theorem State.storeString_add_four (s : State) (r : RegNum) (ea : DWord) (j n : Nat) :
    s.storeString r ea (j + 4) n = s.storeString (r + 1) (ea + 4) j n := by
  induction n generalizing s j with
  | zero => rfl
  | succ n ih =>
    rw [State.storeString, State.storeString, Nat.add_right_comm, ih, stringReg_add_four, stringBit_add_four,
      add_four_add_ofNat]

/-- A string store in two parts. -/
theorem State.storeString_add (s : State) (r : RegNum) (ea : DWord) (j m n : Nat) :
    s.storeString r ea j (m + n) = (s.storeString r ea j m).storeString r ea (j + m) n := by
  induction m generalizing s j with
  | zero => rw [Nat.zero_add]; rfl
  | succ m ih => rw [Nat.add_right_comm, State.storeString, ih, State.storeString, Nat.add_right_comm, Nat.add_assoc]

/-- The low-order word in the order of the program's addresses, most significant byte first. -/
theorem toBytesLow_four_reverse (v : DWord) :
    (toBytesLow 4 v).reverse = [fld v 32 8, fld v 40 8, fld v 48 8, fld v 56 8] := by
  have last : fld v 56 8 = v.setWidth 8 := fld_eq_setWidth v rfl
  rw [last]
  simp [toBytesLow, fld, BitVec.setWidth_ushiftRight_eq_extractLsb]

/-- In Big-Endian mode a string store of four bytes is the store of a word (20_memory.md R92). -/
theorem State.storeString_word (s : State) (r : RegNum) (ea : DWord) (hle : s.env.le = false) :
    s.storeString r ea 0 4 = s.memWrite ea 4 (s.gprOf r) := by
  have order : s.inOrder (toBytesLow 4 (s.gprOf r)) = (toBytesLow 4 (s.gprOf r)).reverse :=
    if_neg (Bool.eq_false_iff.mp hle)
  have same : ∀ j, j < 4 → stringReg r j = r := fun j hj => by
    rw [stringReg, Nat.div_eq_of_lt hj]
    exact BitVec.add_zero r
  have bytes : (List.range' 0 4).map (s.stringByte r) =
      [fld (s.gprOf r) 32 8, fld (s.gprOf r) 40 8, fld (s.gprOf r) 48 8, fld (s.gprOf r) 56 8] := by
    simp [List.range', State.stringByte, same, stringBit]
  rw [State.storeString_eq_storeBytes, State.memWrite_eq, order, toBytesLow_four_reverse, BitVec.add_zero, bytes]

/-- In Big-Endian mode the words of the registers are stored as the string of their bytes. -/
theorem State.storeWords_eq_storeString (s : State) (r : RegNum) (ea : DWord) (n : Nat) (hle : s.env.le = false) :
    s.storeWords r ea n = s.storeString r ea 0 (4 * n) := by
  induction n generalizing s r ea with
  | zero => rfl
  | succ n ih =>
    have order : (s.memWrite ea 4 (s.gprOf r)).env.le = false := by
      rw [State.memWrite_eq, State.storeBytes_frame]
      exact hle
    rw [State.storeWords, ih _ _ _ order, Nat.mul_succ, Nat.add_comm, State.storeString_add,
      State.storeString_word s r ea hle, State.storeString_add_four]

/-- The words that a run of the registers' bytes leaves in storage. -/
theorem bigEndianValue_of_stringBytes {s t : State} {r q : RegNum} {ea : DWord} {n : Nat} (h : (q - r).toNat < n)
    (hb : ∀ j, j < 4 * n → t.byteAt (ea + BitVec.ofNat 64 j) =
      fld (s.gprOf (r + BitVec.ofNat 5 (j / 4))) (32 + 8 * (j % 4)) 8) :
    t.bigEndianValue (ea + BitVec.ofNat 64 (4 * (q - r).toNat)) 4 = (lowWord (s.gprOf q)).toNat := by
  have byte : ∀ i, i < 4 → t.byteAt (ea + BitVec.ofNat 64 (4 * (q - r).toNat) + BitVec.ofNat 64 i) =
      fld (s.gprOf q) (32 + 8 * i) 8 := fun i hi => by
    have reg : (4 * (q - r).toNat + i) / 4 = (q - r).toNat := by omega
    have bit : (4 * (q - r).toNat + i) % 4 = i := by omega
    rw [BitVec.add_assoc, ← BitVec.ofNat_add, hb _ (by omega), reg, bit, add_regOffset]
  rw [State.bigEndianValue_four, lowWord_toNat_eq_bytes, byte 0 (by decide), byte 1 (by decide), byte 2 (by decide),
    byte 3 (by decide)]

/-- A word loaded in Big-Endian mode (R307). -/
theorem State.memRead_word_toNat (s : State) (ea : DWord) (hle : s.env.le = false) :
    (s.memRead ea 4).toNat = s.bigEndianValue ea 4 :=
  (s.memRead_toNat_of_le ea (by decide)).trans (if_neg (Bool.eq_false_iff.mp hle))

end Sys2Proof.Machine
end

section
/-!
PROOFS, family 42_fx_multiple_string.md.  The multiple and string instructions past their checks (O31 to O33).
-/
namespace Sys2Proof.Machine

/-! ## String stores (R313, R314) -/

theorem State.byteCount_lt (s : State) : s.byteCount < 128 := (fld s.xer 57 7).isLt

theorem nbBytes_le (nb : BitVec 5) : nbBytes nb ≤ 32 := by
  have := nb.isLt
  unfold nbBytes
  split <;> omega

/-- `n` bytes of the low words of the registers from `rs` up are stored at `ea`, and nothing else changes. -/
def StoresString (res : Res) (s : State) (rs : RegNum) (ea : DWord) (n : Nat) : Prop :=
  ∃ t, res = .next t ∧
    (∀ j, j < n → t.byteAt (ea + BitVec.ofNat 64 j) =
      fld (s.gprOf (rs + BitVec.ofNat 5 (j / 4))) (32 + 8 * (j % 4)) 8) ∧
    s.StoredAt t ea n ∧ t = { s with mem := t.mem, stored := t.stored, pc := s.nextPc }

theorem finish_storeString_storesString (s : State) (rs : RegNum) (ea : DWord) {n : Nat} (hw : s.mem.wf = true)
    (hn : n ≤ 2 ^ 32) : StoresString (finish (s.storeString rs ea 0 n)) s rs ea n := by
  have run : s.storeString rs ea 0 n = s.storeBytes ea ((List.range n).map (s.stringByte rs)) := by
    rw [State.storeString_eq_storeBytes, BitVec.add_zero, List.range_eq_range']
  have len : ((List.range n).map (s.stringByte rs)).length = n := by rw [List.length_map, List.length_range]
  rw [run]
  refine ⟨_, rfl, fun j hj => ?_, ⟨fun a ha => ?_, fun x => ?_⟩, ?_⟩
  · refine s.byteAt_storeBytes ea hw (by omega) ?_
    rw [List.getElem?_map, List.getElem?_range hj]
    rfl
  · exact s.byteAt_storeBytes_other ea a _ hw (len.symm ▸ ha)
  · have stored := s.mem_stored_storeBytes ea ((List.range n).map (s.stringByte rs)) x
    rw [len] at stored
    exact stored
  · rw [State.storeBytes_frame]
    rfl

/-- Settles O33: past the checks both forms are one run of stored bytes. -/
theorem storeStringResults : Obligations.StoreStringResults := by
  intro s rs ra rb nb hle hw stores base
  have passed : ∀ ea n, n ≤ 128 →
      stores (checkedMultiple .store false ea n s fun _ => finish (s.storeString rs ea 0 n)) ea n := fun ea n hn hv => by
    rw [checkedMultiple_of_bytes_available hle _ hv]
    exact finish_storeString_storesString s rs ea hw (by omega)
  have stswi : stores (execStswi rs ra nb s) base (nbBytes nb) := passed _ _ ((nbBytes_le nb).trans (by decide))
  have stswx : stores (execStswx rs ra rb s) (s.eaX ra rb) s.byteCount := passed _ _ s.byteCount_lt.le
  exact ⟨stswi, stswx⟩

/-! ## String loads (R311, R312) -/

/-- `n` bytes from `ea` up fill the low words of the registers from `rt` up, padded with zeros; nothing else changes. -/
def LoadsString (res : Res) (s : State) (rt : RegNum) (ea : DWord) (n : Nat) : Prop :=
  ∃ t, res = .next t ∧
    (∀ q : RegNum, let k := (q - rt).toNat
      if 4 * k < n then
        fld (t.gprOf q) 0 32 = 0 ∧
          ∀ i, i < 4 → fld (t.gprOf q) (32 + 8 * i) 8 =
            if 4 * k + i < n then s.byteAt (ea + BitVec.ofNat 64 (4 * k + i)) else 0
      else t.gprOf q = s.gprOf q) ∧
    s.SameBytes t ∧ t = { s with gpr := t.gpr, pc := s.nextPc }

theorem finish_loadStringInto_loadsString (s : State) (rt : RegNum) (ea : DWord) {n : Nat} (hn : n ≤ 128) :
    LoadsString (finish (s.loadStringInto rt ea n)) s rt ea n := by
  have frame := s.loadStringInto_frame rt ea n
  refine ⟨(s.loadStringInto rt ea n).advance, rfl, fun q => ?_, fun a => ?_, ?_⟩
  · have cleared := s.gprOf_clearRegs_regsForBytes rt q n
    intro k
    split
    next hk =>
      rw [if_pos hk] at cleared
      refine ⟨?_, fun i hi => ?_⟩
      · exact (State.highWord_loadString _ rt q ea 0 n).trans (by rw [cleared, fld_zero])
      · refine (State.byte_loadString _ rt q ea hi (by omega)).trans ?_
        rw [cleared, fld_zero, State.clearRegs_frame]
        simp only [Nat.zero_le, true_and, Nat.zero_add]
        rfl
    next hk =>
      rw [if_neg hk] at cleared
      exact (State.gprOf_loadString_other _ rt q ea (by omega) (by omega)).trans cleared
  · rw [frame]
    rfl
  · rw [frame]
    rfl

theorem execLswi_of_invalid {rt ra : RegNum} {nb : BitVec 5} (h : 4 * (ra - rt).toNat < nbBytes nb) (s : State) :
    RaisesIllegal (execLswi rt ra nb s) s :=
  if_pos ((stringRangeInvalid_iff rt ra _).mpr h)

theorem execLswx_of_invalid {rt ra rb : RegNum} {s : State}
    (h : rt = ra ∨ rt = rb ∨ 4 * (ra - rt).toNat < s.byteCount ∨ 4 * (rb - rt).toNat < s.byteCount) :
    RaisesIllegal (execLswx rt ra rb s) s := by
  refine if_pos ?_
  simp only [lswxFormInvalid, Bool.or_eq_true, beq_iff_eq, stringRangeInvalid_iff]
  tauto

/-- lswx of no bytes draws RT (R312). -/
theorem execLswx_of_zero {rt ra rb : RegNum} {s : State} (hle : s.env.le = false) (ha : rt ≠ ra) (hb : rt ≠ rb)
    (hn : s.byteCount = 0) : execLswx rt ra rb s = finish (s.setGpr rt (s.draw 64)).drawn := by
  rw [execLswx_of_valid ha hb (by omega) (by omega), hn, checkedMultiple_of_bytes_available hle _ (by omega), if_pos rfl]

/-- Settles O32: past the checks both forms are `loadStringInto`, but for lswx of no bytes. -/
theorem loadStringResults : Obligations.LoadStringResults := by
  intro s rt ra rb nb hle loads inRange immediate count eaI eaX
  have passed : ∀ ea n, n ≤ 128 →
      loads (checkedMultiple .load false ea n s fun _ => finish (s.loadStringInto rt ea n)) ea n := fun ea n hn hv => by
    rw [checkedMultiple_of_bytes_available hle _ hv]
    exact finish_loadStringInto_loadsString s rt ea hn
  have lswi : ¬inRange ra immediate → loads (execLswi rt ra nb s) eaI immediate := fun h => by
    rw [execLswi_of_valid h]
    exact passed _ _ ((nbBytes_le nb).trans (by decide))
  have lswx : rt ≠ ra → rt ≠ rb → ¬inRange ra count → ¬inRange rb count → count ≠ 0 →
      loads (execLswx rt ra rb s) eaX count := fun ha hb hra hrb hn => by
    rw [execLswx_of_valid ha hb hra hrb]
    simp only [if_neg (show s.byteCount ≠ 0 from hn)]
    exact passed _ _ s.byteCount_lt.le
  exact ⟨lswi, fun h => execLswi_of_invalid h s, lswx,
    fun ha hb hn => ⟨_, execLswx_of_zero hle ha hb hn, fun q hq => s.gprOf_setGpr_other _ hq, fun _ => rfl, rfl⟩,
    execLswx_of_invalid⟩

/-! ## lmw and stmw (R307, R308) -/

theorem execLmw_of_invalid {rt ra : RegNum} (h : rt.toNat ≤ ra.toNat) (d : BitVec 16) (s : State) :
    RaisesIllegal (execLmw rt ra d s) s :=
  if_pos (decide_eq_true (h : rt ≤ ra))

/-- Settles O31: lmw fills each register from RT to 31 once, and the words of stmw are the string of their bytes. -/
theorem multipleResults : Obligations.MultipleResults := by
  intro s r ra d hle ea count word
  refine ⟨fun h => execLmw_of_invalid h d s, fun h ha hv => ?_, fun hw ha hv => ?_⟩
  · have done : execLmw r ra d s = finish (s.loadWords r ea count) :=
      (execLmw_of_valid h d s).trans (checkedMultiple_of_words_available hle _ ha hv)
    have frame := s.loadWords_frame r ea count
    refine ⟨_, done, fun q => ?_, fun a => ?_, ?_⟩
    · refine (congrArg BitVec.toNat (s.gprOf_loadWords_regsTo31 r q ea)).trans ?_
      split
      next => rfl
      next => exact s.memRead_word_toNat _ hle
    · rw [frame]
      rfl
    · rw [frame]
      rfl
  · have done : execStmw r ra d s = finish (s.storeString r ea 0 (4 * count)) := by
      rw [← s.storeWords_eq_storeString r ea count hle]
      exact checkedMultiple_of_words_available hle _ ha hv
    obtain ⟨t, ht, bytes, storedAt, frame⟩ := finish_storeString_storesString s r ea (n := 4 * count) hw (by omega)
    refine ⟨t, done.trans ht, fun q hq => ?_, storedAt, frame⟩
    have value := bigEndianValue_of_stringBytes ((regOffset_lt_regsTo31_iff r q).mpr hq) bytes
    rwa [regOffset_of_le hq] at value

end Sys2Proof.Machine
end

section
/-!
PROOFS, family 43_fx_arith.md.  Multiplies and divides (O15, O16, O17): what a result leaves in XER, in CR Field 0 and in its
target, once for the 64-bit results, once for the word results, once for the undefined quotients.
-/
namespace Sys2Proof.Machine

/-! ## XER and CR Field 0 of a completing instruction -/

theorem bitAt_xerOverflowBits : ∀ i, i < 64 → bitAt (0xC0000000 : DWord) i = decide (i = 32 ∨ i = 33) := by decide

/-- `SetOV` when OE = 1 writes OV and SO, and no other bit of XER (10_state.md R54). -/
theorem State.overflow_sameOutside (s : State) (oe ov : Bool) : SameOutside 0xC0000000 s.xer (s.overflow oe ov).xer := by
  cases oe
  · exact SameOutside.refl _ _
  · obtain ⟨-, -, -, hbits⟩ := s.setOv_spec ov
    rw [sameOutside_iff]
    intro i hi hm
    rw [bitAt_xerOverflowBits i hi, decide_eq_false_iff_not] at hm
    exact hbits i hi (by omega) (by omega)

/-- OV and SO are noted in any state that has the XER of `SetOV`. -/
theorem State.overflowNoted_of_xer {s t : State} {oe ov : Bool} (h : t.xer = (s.overflow oe ov).xer) :
    s.OverflowNoted t oe ov ∧ SameOutside 0xC0000000 s.xer t.xer := by
  obtain ⟨hov, hso⟩ := s.overflow_noted oe ov
  refine ⟨⟨?_, ?_⟩, ?_⟩
  · rw [← hov, State.ov, State.ov, h]
  · rw [← hso, State.so, State.so, h]
  · rw [h]
    exact s.overflow_sameOutside oe ov

/-- CR Field 0 ends in SO if `rc`, its first three bits free, and the rest of CR is unchanged: the part of `State.Recorded`
that a result with an undefined portion keeps (10_state.md R47). -/
def State.RecordedSo (s t : State) (rc : Bool) : Prop :=
  if rc then bitAt t.cr 3 = t.so ∧ s.OtherCrFields t 0 else t.cr = s.cr

theorem State.Recorded.recordedSo {s t : State} {rc : Bool} {v : DWord} (h : s.Recorded t rc v) : s.RecordedSo t rc := by
  cases rc
  · exact h
  · obtain ⟨-, -, -, hso, hother⟩ := h
    exact ⟨hso, hother⟩

theorem State.recordedSo_setCr0Undef (s : State) : s.RecordedSo s.setCr0Undef true := by
  obtain ⟨-, -, -, hso⟩ := bitAt_code (s.draw 3) s.so
  exact ⟨(s.bitAt_setCrField 0 _ (by decide : 3 < 4)).trans hso, s.otherCrFields_setCrField 0 _⟩

/-- In 32-bit mode CR Field 0 looks at the low word only. -/
theorem State.recorded_congr_lowWord {s t : State} {rc : Bool} {v v' : DWord} (h32 : s.env.mode64 = false)
    (hv : lowWord v = lowWord v') (h : s.Recorded t rc v) : s.Recorded t rc v' := by
  have view : s.signedView v = s.signedView v' := by
    have narrow : s.env.mode64 ≠ true := by rw [h32]; decide
    rw [State.signedView, State.signedView, if_neg narrow, if_neg narrow, hv]
  unfold State.Recorded at h ⊢
  rwa [← view]

theorem lowWord_zext64 (lo : Word) : lowWord (zext64 lo) = lo := by simp [lowWord, zext64]

theorem lowWord_append (hi lo : Word) : lowWord (hi ++ lo) = lo := BitVec.setWidth_append_eq_right

/-- CR Field 0 of a word result: SO in both modes, and in 32-bit mode the record of the word (R355, R357, R360, R362). -/
theorem State.recordWord_spec (s : State) (rc : Bool) (lo : Word) :
    s.RecordedSo (s.recordWord rc lo) rc ∧
      ∀ v, lowWord v = lo → s.env.mode64 = false → s.Recorded (s.recordWord rc lo) rc v := by
  have narrow : s.env.mode64 = false → s.recordWord rc lo = s.record rc (zext64 lo) := fun h32 => by
    simp [State.recordWord, State.record, h32]
  have record : s.env.mode64 = false → s.Recorded (s.recordWord rc lo) rc (zext64 lo) := fun h32 => by
    rw [narrow h32]
    exact s.recorded_record rc _
  refine ⟨?_, fun v hv h32 => State.recorded_congr_lowWord h32 ((lowWord_zext64 lo).trans hv.symm) (record h32)⟩
  cases h : s.env.mode64
  · exact (record h).recordedSo
  · cases rc
    · exact rfl
    · simp only [State.recordWord, h, if_true]
      exact s.recordedSo_setCr0Undef

/-! ## The three ends of a multiply or divide -/

/-- The frame of a fixed-point result that has been written to its target. -/
theorem State.fixedPoint_of_setGpr {s t : State} {r : RegNum} (v : DWord)
    (h : t = { s with gpr := (s.setGpr r v).gpr, cr := t.cr, xer := t.xer, pc := s.nextPc, undef := t.undef }) :
    s.FixedPoint t r := by
  rw [h]
  exact ⟨fun _ hq => s.gprOf_setGpr_other v hq, fun _ => rfl, rfl, rfl⟩

/-- A 64-bit result with OV and SO. -/
theorem writeResult_overflow (r : RegNum) (v : DWord) (oe ov rc : Bool) (s : State) :
    ∃ t, writeResult r v rc (s.overflow oe ov) = .next t ∧ t.gprOf r = v ∧ s.OverflowNoted t oe ov ∧
      SameOutside 0xC0000000 s.xer t.xer ∧ s.Recorded t rc (t.gprOf r) ∧ t.undef = s.undef ∧ s.FixedPoint t r := by
  obtain ⟨t, ht, hv, hr, hx, hu, hf⟩ := writeResult_setXer r v (s.overflow oe ov).xer rc s
  obtain ⟨hov, hout⟩ := State.overflowNoted_of_xer hx
  refine ⟨t, ?_, hv, hov, hout, hv.symm ▸ hr, hu, hf⟩
  rw [s.overflow_frame]
  exact ht

/-- A word result where XER has been written: the high-order word is free (R355, R357, R360, R362). -/
theorem writeWordResult_setXer (r : RegNum) (lo : Word) (x : DWord) (rc : Bool) (s : State) :
    ∃ t, writeWordResult r lo rc (s.setXer x) = .next t ∧ lowWord (t.gprOf r) = lo ∧ t.xer = x ∧ s.RecordedSo t rc ∧
      (s.env.mode64 = false → s.Recorded t rc (t.gprOf r)) ∧ s.FixedPoint t r := by
  let m := ((s.setXer x).setGpr r (s.draw 32 ++ lo)).drawn
  obtain ⟨hso, hrec⟩ := m.recordWord_spec rc lo
  have hv : (m.recordWord rc lo).gprOf r = s.draw 32 ++ lo := by
    rw [State.recordWord_frame]
    exact s.gprOf_setGpr_same r _
  have hlo : lowWord ((m.recordWord rc lo).gprOf r) = lo := by rw [hv, lowWord_append]
  refine ⟨(m.recordWord rc lo).advance, rfl, hlo, ?_, hso, hrec _ hlo, s.fixedPoint_of_setGpr (s.draw 32 ++ lo) ?_⟩
  · rw [State.recordWord_frame]; rfl
  · rw [State.recordWord_frame]; rfl

/-- A word result with OV and SO. -/
theorem writeWordResult_overflow (r : RegNum) (lo : Word) (oe ov rc : Bool) (s : State) :
    ∃ t, writeWordResult r lo rc (s.overflow oe ov) = .next t ∧ lowWord (t.gprOf r) = lo ∧ s.OverflowNoted t oe ov ∧
      SameOutside 0xC0000000 s.xer t.xer ∧ s.RecordedSo t rc ∧
      (s.env.mode64 = false → s.Recorded t rc (t.gprOf r)) ∧ s.FixedPoint t r := by
  obtain ⟨t, ht, hlo, hx, hso, hrec, hf⟩ := writeWordResult_setXer r lo (s.overflow oe ov).xer rc s
  obtain ⟨hov, hout⟩ := State.overflowNoted_of_xer hx
  refine ⟨t, ?_, hlo, hov, hout, hso, hrec, hf⟩
  rw [s.overflow_frame]
  exact ht

/-- A quotient that does not exist: OV and SO are set if OE = 1, the target and three bits of CR Field 0 are free (R358). -/
theorem divideUndefined_spec (rt : RegNum) (oe rc : Bool) (s : State) :
    ∃ t, divideUndefined rt oe rc s = .next t ∧ s.OverflowNoted t oe true ∧ SameOutside 0xC0000000 s.xer t.xer ∧
      s.RecordedSo t rc ∧ s.FixedPoint t rt := by
  let m := ((s.setGpr rt (s.draw 64)).drawn).overflow oe true
  have hm : m = { (s.setGpr rt (s.draw 64)).drawn with xer := (s.overflow oe true).xer } := by cases oe <;> rfl
  have hx : m.xer = (s.overflow oe true).xer := by rw [hm]
  have hcr : m.cr = s.cr := by rw [hm]; rfl
  obtain ⟨hov, hout⟩ := State.overflowNoted_of_xer hx
  cases rc
  · exact ⟨m.advance, rfl, hov, hout, hcr, s.fixedPoint_of_setGpr (s.draw 64) (by rw [hm]; rfl)⟩
  · obtain ⟨hso, hother⟩ := m.recordedSo_setCr0Undef
    refine ⟨m.setCr0Undef.advance, rfl, hov, hout, ⟨hso, fun n hn => (hother n hn).trans ?_⟩,
      s.fixedPoint_of_setGpr (s.draw 64) (by rw [hm]; rfl)⟩
    rw [State.crField, State.crField, hcr]

/-! ## Multiply (R350 to R357) -/

/-- Settles O15: the three forms write the product modulo 2^64, mulli as a form with OE = 0 and Rc = 0. -/
theorem multiplyLowResults : Obligations.MultiplyLowResults := by
  intro s rt ra rb si oe rc a b low
  have product : ∀ p w oe rc, low (multiplyLow rt p w oe rc s) p w oe rc := fun p w oe rc => by
    obtain ⟨t, ht, hv, hrest⟩ := writeResult_overflow rt (BitVec.ofInt 64 p) oe (outsideSigned w p) rc s
    exact ⟨t, ht, by rw [hv, BitVec.toNat_ofInt]; rfl, hrest⟩
  have immediate : (sext64 si).toInt = si.toInt := BitVec.toInt_signExtend_of_le (by decide)
  have mulli : exec (.mulli rt ra si) s = multiplyLow rt (a.toInt * si.toInt) 64 false false s := by
    rw [← immediate]
    rfl
  exact ⟨mulli ▸ product _ _ _ _, product _ _ _ _, product _ _ _ _⟩

/-- Settles O16: the doubleword forms are plain results, the word forms results with a free high-order word. -/
theorem multiplyHighResults : Obligations.MultiplyHighResults := by
  intro s rt ra rb rc a b wordForm
  have word : ∀ (lo : Word) (p : Int), lo.toNat = (p / 2 ^ 32 % 2 ^ 32).toNat → wordForm (writeWordResult rt lo rc s) p :=
    fun lo p hp => by
      obtain ⟨t, ht, hlo, hx, hso, hrec, hf⟩ := writeWordResult_setXer rt lo s.xer rc s
      have so : t.so = s.so := by rw [State.so, State.so, hx]
      exact ⟨t, ht, by rw [hlo, hp], hx, so ▸ hso, hrec, hf⟩
  refine ⟨writeResult_spec .., writeResult_spec .., word _ _ (BitVec.toNat_ofInt _), word _ _ ?_⟩
  rw [BitVec.toNat_ofNat]
  norm_cast

/-! ## Divide (R358 to R362) -/

theorem divideBad_iff {w : Nat} (hw : 0 < w) (a b : BitVec w) :
    divideBad a b = true ↔ b = 0 ∨ (a.toInt = -2 ^ (w - 1) ∧ b.toInt = -1) := by
  have most : a = BitVec.intMin w ↔ a.toInt = -2 ^ (w - 1) := by
    rw [← BitVec.toInt_inj, BitVec.toInt_intMin_of_pos hw]
  have minus : b = -1 ↔ b.toInt = -1 := by
    rw [← BitVec.toInt_inj, show (-1 : BitVec w) = BitVec.allOnes w from BitVec.neg_one_eq_allOnes, BitVec.toInt_allOnes,
      if_pos hw]
  rw [divideBad, Bool.or_eq_true, Bool.and_eq_true, beq_iff_eq, beq_iff_eq, beq_iff_eq, most, minus]

/-- An unsigned quotient of `w` bits is the exact one. -/
theorem toNat_udiv_eq_emod {w : Nat} (a b : BitVec w) :
    (a / b).toNat = (((a.toNat / b.toNat : Nat) : Int) % 2 ^ w).toNat := by
  have small : a.toNat / b.toNat < 2 ^ w := (Nat.div_le_self _ _).trans_lt a.isLt
  rw [BitVec.toNat_udiv]
  norm_cast
  exact (Nat.mod_eq_of_lt small).symm

theorem signedQuotient_toNat {w : Nat} (a b : BitVec w) :
    (signedQuotient a b).toNat = (a.toInt.tdiv b.toInt % 2 ^ w).toNat := by
  rw [signedQuotient, BitVec.toNat_ofInt]
  norm_cast

/-- Settles O17: the unsigned forms test their divisor for 0, the signed forms test `divideBad`; past the test each ends as a
64-bit or a word result with OV = 0. -/
theorem divideResults : Obligations.DivideResults := by
  intro s rt ra rb oe rc a b doubleword wordForm undefined
  have whole : ∀ {res : Res} {v : DWord} {q : Int}, res = writeResult rt v rc (s.overflow oe false) →
      v.toNat = (q % 2 ^ 64).toNat → doubleword res q := fun {_ v _} hres hq => by
    obtain ⟨t, ht, hv, hrest⟩ := writeResult_overflow rt v oe false rc s
    exact ⟨t, hres.trans ht, by rw [hv, hq], hrest⟩
  have word : ∀ {res : Res} {lo : Word} {q : Int}, res = writeWordResult rt lo rc (s.overflow oe false) →
      lo.toNat = (q % 2 ^ 32).toNat → wordForm res q := fun {_ lo _} hres hq => by
    obtain ⟨t, ht, hlo, hrest⟩ := writeWordResult_overflow rt lo oe false rc s
    exact ⟨t, hres.trans ht, by rw [hlo, hq], hrest⟩
  have free : ∀ {res : Res}, res = divideUndefined rt oe rc s → undefined res := fun hres =>
    hres ▸ divideUndefined_spec rt oe rc s
  have bad64 := divideBad_iff (by decide) a b
  have bad32 := divideBad_iff (by decide) (lowWord a) (lowWord b)
  have divdu : b ≠ 0 → doubleword (exec (.divdu rt ra rb oe rc) s) _ := fun h =>
    whole (if_neg h) (toNat_udiv_eq_emod a b)
  have divd : b ≠ 0 → ¬(a.toInt = -2 ^ 63 ∧ b.toInt = -1) → doubleword (exec (.divd rt ra rb oe rc) s) _ := fun h0 h1 =>
    whole (if_neg (mt bad64.mp (not_or.mpr ⟨h0, h1⟩))) (signedQuotient_toNat a b)
  have divwu : lowWord b ≠ 0 → wordForm (exec (.divwu rt ra rb oe rc) s) _ := fun h =>
    word (if_neg h) (toNat_udiv_eq_emod _ _)
  have divw : lowWord b ≠ 0 → ¬((lowWord a).toInt = -2 ^ 31 ∧ (lowWord b).toInt = -1) →
      wordForm (exec (.divw rt ra rb oe rc) s) _ := fun h0 h1 =>
    word (if_neg (mt bad32.mp (not_or.mpr ⟨h0, h1⟩))) (signedQuotient_toNat _ _)
  exact ⟨divdu, divd, divwu, divw, fun h => free (if_pos h), fun h => free (if_pos (bad64.mpr h)),
    fun h => free (if_pos h), fun h => free (if_pos (bad32.mpr h))⟩

end Sys2Proof.Machine
end

section
/-!
PROOFS, family 44_fx_compare_trap_logical.md.  Compares, traps, logical instructions, extensions and counts (O18 to O21).
-/
namespace Sys2Proof.Machine

/-! ## Operands -/

theorem signedOperand_toInt (l : Bool) (x : DWord) :
    (signedOperand l x).toInt = if l then x.toInt else (lowWord x).toInt := by
  cases l
  · exact BitVec.toInt_signExtend_of_le (by decide)
  · rfl

theorem zext64_toNat {w : Nat} (hw : w ≤ 64) (x : BitVec w) : (zext64 x).toNat = x.toNat :=
  BitVec.toNat_setWidth_of_le hw

theorem unsignedOperand_toNat (l : Bool) (x : DWord) :
    ((unsignedOperand l x).toNat : Int) = if l then (x.toNat : Int) else (lowWord x).toNat := by
  cases l
  · exact congrArg Nat.cast (zext64_toNat (by decide) (lowWord x))
  · rfl

theorem uiHigh_eq_shiftLeft (ui : BitVec 16) : uiHigh ui = uiLow ui <<< 16 := by
  apply BitVec.eq_of_toNat_eq
  have hui : ui.toNat < 2 ^ 16 := ui.isLt
  rw [uiHigh, zext64_toNat (by decide), BitVec.toNat_append, BitVec.toNat_shiftLeft, uiLow, zext64_toNat (by decide),
    Nat.mod_eq_of_lt]
  · exact Nat.or_zero _
  · rw [Nat.shiftLeft_eq]
    omega

/-! ## Compare (R381 to R384) -/

/-- A compare code has exactly the bit of the order that holds. -/
theorem orderCode_bits (x y : Int) :
    bitAt (orderCode x y) 0 = decide (x < y) ∧ bitAt (orderCode x y) 1 = decide (y < x) ∧
      bitAt (orderCode x y) 2 = decide (x = y) := by
  rcases lt_trichotomy x y with h | h | h
  · simp [orderCode, h, h.not_gt, h.ne, bitAt]
  · simp [orderCode, h, bitAt]
  · simp [orderCode, h, h.not_gt, h.ne', bitAt]

/-- The instruction completes: CR field `bf` says how `x` and `y` compare and ends in SO, nothing else changes. -/
def Compares (res : Res) (s : State) (bf : BitVec 3) (x y : Int) : Prop :=
  ∃ t, res = .next t ∧
    bitAt t.cr (4 * bf.toNat) = decide (x < y) ∧ bitAt t.cr (4 * bf.toNat + 1) = decide (y < x) ∧
    bitAt t.cr (4 * bf.toNat + 2) = decide (x = y) ∧ bitAt t.cr (4 * bf.toNat + 3) = s.so ∧
    s.OtherCrFields t bf ∧ t = { s with cr := t.cr, pc := s.nextPc }

theorem finish_setCompare_compares (bf : BitVec 3) (x y : Int) (s : State) :
    Compares (finish (s.setCompare bf (orderCode x y))) s bf x y := by
  obtain ⟨hlt, hgt, heq⟩ := orderCode_bits x y
  obtain ⟨h0, h1, h2, h3⟩ := bitAt_code (orderCode x y) s.so
  have field : ∀ i, i < 4 → bitAt (s.setCompare bf (orderCode x y)).cr (4 * bf.toNat + i) =
      bitAt (orderCode x y ++ BitVec.ofBool s.so) i := fun i hi => s.bitAt_setCrField bf _ hi
  exact ⟨(s.setCompare bf (orderCode x y)).advance, rfl, (field 0 (by decide)).trans (h0.trans hlt),
    (field 1 (by decide)).trans (h1.trans hgt), (field 2 (by decide)).trans (h2.trans heq),
    (field 3 (by decide)).trans h3, s.otherCrFields_setCrField bf _, rfl⟩

/-- Settles O18: every compare is `setCompare` of the order of two integers, its operands as signed or unsigned integers. -/
theorem compareResults : Obligations.CompareResults := by
  intro s bf l ra rb imm sv uv compared
  have compare : ∀ {res : Res} {x y x' y' : Int}, res = finish (s.setCompare bf (orderCode x y)) → x = x' → y = y' →
      compared res x' y' := fun hres hx hy => hres ▸ hx ▸ hy ▸ finish_setCompare_compares bf _ _ s
  have signed : ∀ r, (signedOperand l (s.gprOf r)).toInt = sv (s.gprOf r) := fun r => signedOperand_toInt l _
  have unsigned : ∀ r, ((unsignedOperand l (s.gprOf r)).toNat : Int) = uv (s.gprOf r) := fun r =>
    unsignedOperand_toNat l _
  have si : (sext64 imm).toInt = imm.toInt := BitVec.toInt_signExtend_of_le (by decide)
  have ui : ((uiLow imm).toNat : Int) = imm.toNat := congrArg Nat.cast (zext64_toNat (by decide) imm)
  exact ⟨compare rfl (signed ra) si, compare rfl (signed ra) (signed rb), compare rfl (unsigned ra) ui,
    compare rfl (unsigned ra) (unsigned rb)⟩

/-! ## Trap (R390 to R394) -/

/-- A condition that TO selects holds of `a` and `b`: signed less, signed greater, equal, unsigned less, unsigned greater
(R390). -/
def trapSelected (tos : BitVec 5) (a b : DWord) : Bool :=
  (bitAt tos 0 && decide (a.toInt < b.toInt)) || (bitAt tos 1 && decide (b.toInt < a.toInt)) ||
    (bitAt tos 2 && decide (a.toInt = b.toInt)) || (bitAt tos 3 && decide (a.toNat < b.toNat)) ||
    (bitAt tos 4 && decide (b.toNat < a.toNat))

/-- Five flags in a row meet a mask just where the mask has a bit of a flag that holds. -/
theorem flags_and_eq_zero_iff (p q r u v : Bool) (m : BitVec 5) :
    (BitVec.ofBool p ++ BitVec.ofBool q ++ BitVec.ofBool r ++ BitVec.ofBool u ++ BitVec.ofBool v) &&& m = 0 ↔
      (bitAt m 0 && p || bitAt m 1 && q || bitAt m 2 && r || bitAt m 3 && u || bitAt m 4 && v) = false := by
  revert p q r u v m
  decide

theorem trapTest_eq (a b : DWord) (tos : BitVec 5) (s : State) :
    trapTest a b tos s = if trapSelected tos a b then raiseTrap s else finish s := by
  have same : decide (a = b) = decide (a.toInt = b.toInt) := decide_eq_decide.mpr BitVec.toInt_inj.symm
  have hzero : trapConditions a b &&& tos = 0 ↔ trapSelected tos a b = false := by
    rw [trapConditions, same]
    exact flags_and_eq_zero_iff ..
  cases h : trapSelected tos a b
  · exact if_pos (hzero.mpr h)
  · exact if_neg fun h0 => Bool.false_ne_true ((hzero.mp h0).symm.trans h)

/-- Settles O19: every Trap instruction is `trapTest`, on whole registers or on sign-extended words. -/
theorem trapResults : Obligations.TrapResults := by
  intro s tos ra rb si traps outcome a b w k
  have test : ∀ x y, outcome (trapTest x y tos s) (traps x.toInt y.toInt x.toNat y.toNat) := fun x y => by
    rw [trapTest_eq]
    exact ⟨fun h => if_pos h, fun h => if_neg (Bool.eq_false_iff.mp h)⟩
  exact ⟨test a k, test a b, test (w a) k, test (w a) (w b)⟩

/-! ## Logical (R397 to R412) -/

/-- A GPR result, told bit by bit. -/
theorem writeResult_writesBits {v : DWord} {f : Nat → Bool} (h : ∀ i, i < 64 → bitAt v i = f i) (r : RegNum) (rc : Bool)
    (s : State) : WritesBits (writeResult r v rc s) s r f rc := by
  obtain ⟨t, ht, hv, hrest⟩ := writeResult_spec r v rc s
  subst hv
  exact ⟨t, ht, h, hrest⟩

/-- Settles O20: every form is `writeResult`; the shifted immediate is a shift of the low one, and the register forms are the
bitwise operations. -/
theorem logicalResults : Obligations.LogicalResults := by
  intro s rs ra rb ui rc lo hi x y
  have high : uiHigh ui = hi := uiHigh_eq_shiftLeft ui
  have bits : ∀ {v : DWord} {f : Nat → Bool}, (∀ i, i < 64 → bitAt v i = f i) →
      WritesBits (writeResult ra v rc s) s ra f rc := fun h => writeResult_writesBits h ra rc s
  have xnor : ∀ i, (!(x i != y i)) = (x i == y i) := fun i => Bool.not_not _
  refine ⟨writeResult_spec .., high ▸ writeResult_spec .., writeResult_spec .., high ▸ writeResult_spec ..,
    writeResult_spec .., high ▸ writeResult_spec .., bits fun i _ => bitAt_and _ _ i, bits fun i _ => bitAt_or _ _ i,
    bits fun i _ => bitAt_xor _ _ i, bits fun i h => ?nand, bits fun i h => ?nor, bits fun i h => ?eqv,
    bits fun i h => ?andc, bits fun i h => ?orc⟩
  case nand => rw [bitAt_not _ h, bitAt_and]
  case nor => rw [bitAt_not _ h, bitAt_or]
  case eqv => rw [bitAt_not _ h, bitAt_xor, xnor]
  case andc => rw [bitAt_and, bitAt_not _ h]
  case orc => rw [bitAt_or, bitAt_not _ h]

/-! ## Counts (R416 to R418) -/

theorem bitAt_eq_testBit {w : Nat} (x : BitVec w) (i : Nat) : bitAt x i = x.toNat.testBit (w - 1 - i) := rfl

/-- `n` 0-bits stand before the first 1 of `x`, or `x` is 0 and `n` its width. -/
theorem leadingZeros_spec {w : Nat} (x : BitVec w) :
    (∀ i, i < leadingZeros x → bitAt x i = false) ∧
      (leadingZeros x = w ∨ leadingZeros x < w ∧ bitAt x (leadingZeros x) = true) := by
  unfold leadingZeros
  split
  case isTrue h =>
    refine ⟨fun i _ => ?_, .inl rfl⟩
    rw [bitAt_eq_testBit, h, Nat.zero_testBit]
  case isFalse h =>
    have top : x.toNat.log2 < w := (Nat.log2_lt h).mpr x.isLt
    refine ⟨fun i hi => ?_, .inr ⟨by omega, ?_⟩⟩
    · have above : x.toNat.log2 < w - 1 - i := by omega
      exact Nat.testBit_lt_two_pow ((Nat.log2_lt h).mp above)
    · have place : w - 1 - (w - 1 - x.toNat.log2) = x.toNat.log2 := by omega
      rw [bitAt_eq_testBit, place, Nat.testBit_log2 h]

theorem leadingZeros_le {w : Nat} (x : BitVec w) : leadingZeros x ≤ w :=
  (leadingZeros_spec x).2.elim Nat.le_of_eq fun h => h.1.le

/-- Among the last `n` bits of `x`, the first `c` are 0, and the next, if there is one, is 1. -/
def ZerosBefore (x : DWord) (n c : Nat) : Prop :=
  (∀ i, i < c → bitAt x (64 - n + i) = false) ∧ (c = n ∨ c < n ∧ bitAt x (64 - n + c) = true)

theorem zerosBefore_leadingZeros {x : DWord} {n : Nat} {y : BitVec n} (hn : n ≤ 64) (hy : fld x (64 - n) n = y) :
    ZerosBefore x n (BitVec.ofNat 64 (leadingZeros y)).toNat := by
  subst hy
  obtain ⟨zeros, first⟩ := leadingZeros_spec (fld x (64 - n) n)
  have le := leadingZeros_le (fld x (64 - n) n)
  have bit : ∀ i, i < n → bitAt (fld x (64 - n) n) i = bitAt x (64 - n + i) := fun i hi => bitAt_fld x hi (by omega)
  rw [BitVec.toNat_ofNat, Nat.mod_eq_of_lt (by omega)]
  exact ⟨fun i hi => (bit i (by omega)).symm.trans (zeros i hi),
    first.imp_right fun ⟨hlt, hone⟩ => ⟨hlt, (bit _ hlt).symm.trans hone⟩⟩

/-- The count of 1s among the low `n` bits of a byte is that among its last `n` positions. -/
theorem popCount_eq_countP (x : Byte) {n : Nat} (hn : n ≤ 8) :
    popCount x n = (List.range' (8 - n) n).countP (bitAt x) := by
  induction n with
  | zero => rfl
  | succ n ih =>
    have next : 8 - (n + 1) + 1 = 8 - n := by omega
    have bit : bitAt x (8 - (n + 1)) = x.getLsbD n := congrArg x.getLsbD (by omega)
    rw [popCount, ih (by omega), List.range'_succ, List.countP_cons, next, bit, Nat.add_comm]

theorem popCountByte_toNat (x : DWord) {i : Nat} (hi : i < 8) :
    (popCountByte x i).toNat = ((List.range 8).filter fun j => bitAt x (8 * i + j)).length := by
  have count : popCount (fld x (8 * i) 8) 8 = (List.range 8).countP fun j => bitAt x (8 * i + j) := by
    rw [popCount_eq_countP _ le_rfl, ← List.range_eq_range']
    exact List.countP_congr fun j hj => by rw [bitAt_fld x (List.mem_range.mp hj) (by omega)]
  have small : (List.range 8).countP (fun j => bitAt x (8 * i + j)) < 2 ^ 8 := List.countP_le_length.trans_lt (by decide)
  rw [popCountByte, count, BitVec.toNat_ofNat, Nat.mod_eq_of_lt small, List.countP_eq_length_filter]

/-- Bytes 0 to `n` of `c` in a row, byte 0 first: the form of popcntb's result. -/
def byteRow (c : Nat → Byte) : (n : Nat) → BitVec (8 * (n + 1))
  | 0 => c 0
  | n + 1 => byteRow c n ++ c (n + 1)

theorem fld_byteRow (c : Nat → Byte) {n i : Nat} (hi : i ≤ n) : fld (byteRow c n) (8 * i) 8 = c i := by
  induction n with
  | zero =>
    obtain rfl : i = 0 := by omega
    exact fld_whole (c 0)
  | succ n ih =>
    rcases hi.lt_or_eq with h | rfl
    · exact (fld_append_left (byteRow c n) (c (n + 1)) (by omega)).trans (ih (by omega))
    · refine (fld_append_right (byteRow c n) (c (n + 1)) le_rfl le_rfl).trans ?_
      rw [Nat.sub_self]
      exact fld_whole (c (n + 1))

/-- popcntb writes the row of the counts (R418). -/
theorem execPopcntb_eq (rs ra : RegNum) (s : State) :
    execPopcntb rs ra s = writeResult ra (byteRow (popCountByte (s.gprOf rs)) 7) false s := rfl

/-- Settles O21: every form is `writeResult`; the counts are `leadingZeros` of the last `n` bits and `popCountByte`. -/
theorem extendAndCountResults : Obligations.ExtendAndCountResults := by
  intro s rs ra rc x zerosCounted
  have counted : ∀ {n : Nat} {y : BitVec n}, n ≤ 64 → fld x (64 - n) n = y →
      zerosCounted (writeResult ra (BitVec.ofNat 64 (leadingZeros y)) rc s) n := fun {_ y} hn hy => by
    obtain ⟨t, ht, hv, hrest⟩ := writeResult_spec ra (BitVec.ofNat 64 (leadingZeros y)) rc s
    obtain ⟨zeros, first⟩ := zerosBefore_leadingZeros hn hy
    rw [← hv] at zeros first hrest
    exact ⟨t, ht, zeros, first, hrest⟩
  obtain ⟨t, ht, hv, hrest⟩ := writeResult_spec ra (byteRow (popCountByte x) 7) false s
  refine ⟨writeResult_spec .., writeResult_spec .., writeResult_spec .., counted (by decide) (fld_whole x),
    counted (by decide) (fld_eq_setWidth x rfl), t, (execPopcntb_eq rs ra s).trans ht, fun i hi => ?_, hrest⟩
  rw [hv, fld_byteRow _ (Nat.le_of_lt_succ hi), popCountByte_toNat x hi]

end Sys2Proof.Machine
end

section
/-!
PROOFS, family 45_fx_rotate_shift.md.  The mask generator, the rotates and the shifts (O22 to O24): the bits of a mask
and of a rotated operand, then a rotated operand under its mask as a shift, in the doubleword and in the word form.
-/
namespace Sys2Proof.Machine

/-! ## Masks and rotated operands, bit by bit (R440, R441) -/

/-- The library's name for a bit in the spec's numbering. -/
theorem bitAt_eq_getMsbD {w : Nat} (x : BitVec w) {i : Nat} (hi : i < w) : bitAt x i = x.getMsbD i := by
  rw [BitVec.getMsbD_eq_getLsbD, decide_eq_true hi, Bool.true_and, bitAt]

theorem bitAt_allOnes_shiftRight (n : Nat) {i : Nat} (hi : i < 64) :
    bitAt (BitVec.allOnes 64 >>> n) i = decide (n ≤ i) := by
  have h : i - n < 64 := by omega
  rw [bitAt_eq_getMsbD _ hi, BitVec.getMsbD_ushiftRight, BitVec.getMsbD_allOnes, decide_eq_true hi, decide_eq_true h,
    Bool.true_and, Bool.and_true, ← decide_not, decide_eq_decide, Nat.not_lt]

theorem bitAt_allOnes_shiftLeft {mstop i : Nat} (hstop : mstop < 64) (hi : i < 64) :
    bitAt (BitVec.allOnes 64 <<< (63 - mstop)) i = decide (i ≤ mstop) := by
  rw [bitAt_eq_getMsbD _ hi, BitVec.getMsbD_shiftLeft, BitVec.getMsbD_allOnes, decide_eq_decide]
  omega

theorem bitAt_maskBits (mstart : Nat) {mstop i : Nat} (hstop : mstop < 64) (hi : i < 64) :
    bitAt (maskBits mstart mstop) i = inMask mstart mstop i := by
  unfold maskBits inMask
  split
  case isTrue => rw [bitAt_and, bitAt_allOnes_shiftRight _ hi, bitAt_allOnes_shiftLeft hstop hi, Bool.decide_and]
  case isFalse => rw [bitAt_or, bitAt_allOnes_shiftRight _ hi, bitAt_allOnes_shiftLeft hstop hi, Bool.decide_or]

theorem bitAt_maskWord (mb me : BitVec 5) {i : Nat} (hi : i < 64) :
    bitAt (maskWord mb me) i = inMask (mb.toNat + 32) (me.toNat + 32) i :=
  bitAt_maskBits _ (Nat.add_lt_add_right me.isLt 32) hi

theorem bitAt_rotl64 (x : DWord) (n : Nat) {i : Nat} (hi : i < 64) : bitAt (rotl64 x n) i = rotatedBit x n i := by
  rw [bitAt_eq_getMsbD _ hi, rotl64, BitVec.getMsbD_rotateLeft, decide_eq_true hi, Bool.true_and, Nat.add_comm, rotatedBit,
    bitAt_eq_getMsbD _ (Nat.mod_lt _ (by decide))]

/-- Both halves of the doubled word are the word, so its bits repeat with period 32. -/
theorem bitAt_rotl32 (w : Word) (n : Nat) {i : Nat} (hi : i < 64) : bitAt (rotl32 w n) i = bitAt w ((i + n) % 32) := by
  rw [rotl32, bitAt_rotl64 _ n hi, rotatedBit]
  by_cases h : (i + n) % 64 < 32
  · rw [bitAt_append_left _ _ h]
    congr 1
    omega
  · rw [bitAt_append_right _ _ (by omega) (by omega)]
    congr 1
    omega

theorem bitAt_rotl32_lowWord (x : DWord) (n : Nat) {i : Nat} (hi : i < 64) :
    bitAt (rotl32 (lowWord x) n) i = rotatedWordBit x n i := by
  rw [bitAt_rotl32 _ n hi, bitAt_lowWord, rotatedWordBit]

theorem bitAt_underMask (r m old : DWord) {i : Nat} (hi : i < 64) :
    bitAt (underMask r m old) i = if bitAt m i then bitAt r i else bitAt old i := by
  rw [underMask, bitAt_or, bitAt_and, bitAt_and, bitAt_not _ hi]
  cases bitAt m i <;> simp

/-- Settles O22: the two shifted rows of 1-bits meet from mstart through mstop, or join where they wrap. -/
theorem maskGenerator : Obligations.MaskGenerator :=
  fun mstart _ _ _ hstop hi => bitAt_maskBits mstart hstop hi

/-! ## Rotates (R445 to R454) -/

/-- Settles O23: every rotate writes a rotated operand under a mask, over zeros or over the old target. -/
theorem rotateResults : Obligations.RotateResults := by
  intro s rs ra rb sh m sh5 mb me rc x old n n5
  have bits : ∀ {v : DWord} {f : Nat → Bool}, (∀ i, i < 64 → bitAt v i = f i) →
      WritesBits (writeResult ra v rc s) s ra f rc := fun h => writeResult_writesBits h ra rc s
  have double : ∀ k mstart {mstop i}, mstop < 64 → i < 64 →
      bitAt (rotl64 x k &&& maskBits mstart mstop) i = (inMask mstart mstop i && rotatedBit x k i) :=
    fun k mstart _ _ hstop hi => by
      rw [bitAt_and, bitAt_rotl64 _ _ hi, bitAt_maskBits _ hstop hi, Bool.and_comm]
  have word : ∀ k {i}, i < 64 → bitAt (rotl32 (lowWord x) k &&& maskWord mb me) i =
      (inMask (mb.toNat + 32) (me.toNat + 32) i && rotatedWordBit x k i) := fun k _ hi => by
    rw [bitAt_and, bitAt_rotl32_lowWord _ _ hi, bitAt_maskWord _ _ hi, Bool.and_comm]
  refine ⟨bits fun i => double _ _ (by decide), bits fun i => double _ _ m.isLt, bits fun i => double _ _ (by omega),
    bits fun i => double _ _ (by decide), bits fun i => double _ _ m.isLt, bits fun i => word _, bits fun i => word _,
    bits fun i hi => ?rldimi, bits fun i hi => ?rlwimi⟩
  case rldimi => rw [bitAt_underMask _ _ _ hi, bitAt_maskBits _ (by omega) hi, bitAt_rotl64 _ _ hi]
  case rlwimi => rw [bitAt_underMask _ _ _ hi, bitAt_maskWord _ _ hi, bitAt_rotl32_lowWord _ _ hi]

/-! ## The whole shift amount (R456 to R459, R462, R463) -/

/-- A field one bit longer than `n`: its first bit is worth `2 ^ n`. -/
theorem fld_succ_toNat {w : Nat} (x : BitVec w) {start n : Nat} (h : start + (n + 1) ≤ w) :
    (fld x start (n + 1)).toNat = (if bitAt x start then 2 ^ n else 0) + (fld x (start + 1) n).toNat := by
  have place : w - start - (n + 1) = w - (start + 1) - n := by omega
  have first : bitAt x start = (x.toNat >>> (w - (start + 1) - n)).testBit n := by
    rw [bitAt_eq_testBit, Nat.testBit_shiftRight]
    congr 1
    omega
  rw [fld, fld, BitVec.extractLsb'_toNat, BitVec.extractLsb'_toNat, place, first, Nat.mod_pow_succ, Nat.add_comm,
    Nat.testBit_eq_decide_div_mod_eq]
  rcases Nat.mod_two_eq_zero_or_one (x.toNat >>> (w - (start + 1) - n) / 2 ^ n) with h0 | h1
  · simp [h0]
  · simp [h1]

theorem wholeAmount64_eq (x : DWord) :
    (fld x 57 7).toNat = (if bitAt x 57 then 64 else 0) + shiftAmount64 x :=
  fld_succ_toNat x (by decide)

theorem wholeAmount32_eq (x : DWord) :
    (fld x 58 6).toNat = (if bitAt x 58 then 32 else 0) + shiftAmount32 x :=
  fld_succ_toNat x (by decide)

theorem bitAt_unlessOver (c : Bool) (m : DWord) (i : Nat) : bitAt (unlessOver c m) i = (!c && bitAt m i) := by
  cases c
  · rfl
  · exact bitAt_zero i

/-! ## The bits of a shifted or resized vector -/

section
variable {w i : Nat} (v : BitVec w)

theorem bitAt_shiftLeft (n : Nat) (hi : i < w) : bitAt (v <<< n) i = (decide (i + n < w) && bitAt v (i + n)) := by
  rw [bitAt_eq_getMsbD _ hi, BitVec.getMsbD_shiftLeft, BitVec.getMsbD_eq_getLsbD, bitAt, Nat.add_comm]

theorem bitAt_ushiftRight (n : Nat) (hi : i < w) : bitAt (v >>> n) i = (decide (n ≤ i) && bitAt v (i - n)) := by
  rw [bitAt_eq_getMsbD _ hi, BitVec.getMsbD_ushiftRight, decide_eq_true hi, Bool.true_and,
    bitAt_eq_getMsbD _ (by omega), ← decide_not, decide_eq_decide.mpr Nat.not_lt]

theorem bitAt_first : bitAt v 0 = v.msb := (BitVec.msb_eq_getLsbD_last v).symm

/-- Bits from before the first one are the sign: there `i - n` is 0. -/
theorem bitAt_sshiftRight (n : Nat) (hi : i < w) : bitAt (v.sshiftRight n) i = bitAt v (i - n) := by
  rw [bitAt_eq_getMsbD _ hi, BitVec.getMsbD_sshiftRight, decide_eq_true hi, Bool.true_and]
  split
  case isTrue h => rw [Nat.sub_eq_zero_of_le h.le, bitAt_first]
  case isFalse => rw [bitAt_eq_getMsbD _ (by omega)]

theorem bitAt_setWidth_64 (hw : w ≤ 64) (hi : i < 64) :
    bitAt (v.setWidth 64) i = (decide (64 - w ≤ i) && bitAt v (i - (64 - w))) := by
  have place : i + w - 64 = i - (64 - w) := by omega
  rw [bitAt_eq_getMsbD _ hi, BitVec.getMsbD_setWidth, place]
  by_cases h : 64 - w ≤ i
  · rw [bitAt_eq_getMsbD v (by omega)]
  · rw [decide_eq_false h, Bool.false_and, Bool.false_and]

theorem bitAt_signExtend_64 (hw : w ≤ 64) (hi : i < 64) : bitAt (v.signExtend 64) i = bitAt v (i - (64 - w)) := by
  rw [bitAt_eq_getMsbD _ hi, BitVec.getMsbD_signExtend, decide_eq_true hi, Bool.true_and]
  split
  case isTrue =>
    have place : i + w - 64 = i - (64 - w) := by omega
    rw [place, bitAt_eq_getMsbD v (by omega)]
  case isFalse h => rw [Nat.sub_eq_zero_of_le (by omega), bitAt_first]

theorem bitAt_setWidth_of_64 (r : DWord) (hw : w ≤ 64) (hi : i < w) : bitAt (r.setWidth w) i = bitAt r (64 - w + i) := by
  have place : i + 64 - w = 64 - w + i := by omega
  rw [bitAt_eq_getMsbD _ hi, BitVec.getMsbD_setWidth, decide_eq_true (by omega), Bool.true_and, place,
    bitAt_eq_getMsbD _ (by omega)]

end

/-! ## A rotated operand under its mask, as a shift

One argument for the doubleword forms (`w = 64`) and the word forms (`w = 32`): `r` is the operand `v` rotated, repeated over
64 bits; `n` is the shift amount without its first bit, the overshift `c`, worth `w`. -/

/-- `r` is `v` rotated left by `n`, as often as it fits into 64 bits (R440). -/
def RepeatsRotated {w : Nat} (v : BitVec w) (n : Nat) (r : DWord) : Prop :=
  ∀ i, i < 64 → bitAt r i = bitAt v ((i + n) % w)

theorem rotl64_repeatsRotated (x : DWord) (n : Nat) : RepeatsRotated x n (rotl64 x n) := fun _ hi => bitAt_rotl64 x n hi

theorem rotl32_repeatsRotated (w : Word) (n : Nat) : RepeatsRotated w n (rotl32 w n) := fun _ hi => bitAt_rotl32 w n hi

theorem inMask_of_le {mb me : Nat} (h : mb ≤ me) (i : Nat) : inMask mb me i = decide (mb ≤ i ∧ i ≤ me) := if_pos h

section
variable {w n : Nat} {v : BitVec w} {r : DWord}

/-- The logical left shift (R456, R457). -/
theorem rotated_and_mask_eq_shiftLeft (hw : w = 32 ∨ w = 64) (hn : n < w) (hr : RepeatsRotated v n r) (c : Bool) :
    r &&& unlessOver c (maskBits (64 - w) (63 - n)) = (v <<< ((if c then w else 0) + n)).setWidth 64 := by
  apply eq_of_bitAt_eq
  intro i hi
  rw [bitAt_and, hr i hi, bitAt_unlessOver, bitAt_maskBits _ (by omega) hi, inMask_of_le (by omega),
    bitAt_setWidth_64 _ (by omega) hi, bitAt_shiftLeft _ _ (by omega)]
  cases c
  case true =>
    have gone : ¬i - (64 - w) + (w + n) < w := by omega
    simp [gone]
  case false =>
    rw [if_neg Bool.false_ne_true, Nat.zero_add]
    by_cases kept : 64 - w ≤ i ∧ i ≤ 63 - n
    · have place : (i + n) % w = i - (64 - w) + n := by rcases hw with rfl | rfl <;> omega
      have fits : i - (64 - w) + n < w := by omega
      simp [kept, place, fits]
    · have out : ¬(64 - w ≤ i ∧ i - (64 - w) + n < w) := by omega
      rw [decide_eq_false kept, Bool.and_false, Bool.and_false, ← Bool.and_assoc, ← Bool.decide_and, decide_eq_false out,
        Bool.false_and]

/-- The logical right shift (R458, R459). -/
theorem rotated_and_mask_eq_ushiftRight (hw : w = 32 ∨ w = 64) (hn : n < w) (hr : RepeatsRotated v (64 - n) r) (c : Bool) :
    r &&& unlessOver c (maskBits (n + (64 - w)) 63) = (v >>> ((if c then w else 0) + n)).setWidth 64 := by
  apply eq_of_bitAt_eq
  intro i hi
  rw [bitAt_and, hr i hi, bitAt_unlessOver, bitAt_maskBits _ (by omega) hi, inMask_of_le (by omega),
    bitAt_setWidth_64 _ (by omega) hi, bitAt_ushiftRight _ _ (by omega)]
  cases c
  case true =>
    have gone : ¬w + n ≤ i - (64 - w) := by omega
    simp [gone]
  case false =>
    rw [if_neg Bool.false_ne_true, Nat.zero_add]
    by_cases kept : n + (64 - w) ≤ i ∧ i ≤ 63
    · have place : (i + (64 - n)) % w = i - (64 - w) - n := by rcases hw with rfl | rfl <;> omega
      have fits : 64 - w ≤ i ∧ n ≤ i - (64 - w) := by omega
      simp [kept, place, fits]
    · have out : ¬(64 - w ≤ i ∧ n ≤ i - (64 - w)) := by omega
      rw [decide_eq_false kept, Bool.and_false, Bool.and_false, ← Bool.and_assoc, ← Bool.decide_and, decide_eq_false out,
        Bool.false_and]

/-- The algebraic right shift (R460 to R463). -/
theorem signFill_eq_sshiftRight (hw : w = 32 ∨ w = 64) (hn : n < w) (hr : RepeatsRotated v (64 - n) r) (c : Bool) :
    signFill r (unlessOver c (maskBits (n + (64 - w)) 63)) (bitAt v 0) =
      (v.sshiftRight ((if c then w else 0) + n)).signExtend 64 := by
  apply eq_of_bitAt_eq
  intro i hi
  have fill : bitAt (if bitAt v 0 then BitVec.allOnes 64 else 0) i = bitAt v 0 := by
    cases bitAt v 0
    · exact bitAt_zero i
    · rw [if_pos rfl, bitAt_eq_getMsbD _ hi, BitVec.getMsbD_allOnes, decide_eq_true hi]
  rw [signFill, bitAt_underMask _ _ _ hi, fill, hr i hi, bitAt_unlessOver, bitAt_maskBits _ (by omega) hi,
    inMask_of_le (by omega), bitAt_signExtend_64 _ (by omega) hi, bitAt_sshiftRight _ _ (by omega)]
  cases c
  case true =>
    have gone : i - (64 - w) - (w + n) = 0 := by omega
    simp [gone]
  case false =>
    rw [if_neg Bool.false_ne_true, Nat.zero_add]
    by_cases kept : n + (64 - w) ≤ i
    · have place : (i + (64 - n)) % w = i - (64 - w) - n := by rcases hw with rfl | rfl <;> omega
      have below : i ≤ 63 := by omega
      simp [kept, place, below]
    · have gone : i - (64 - w) - n = 0 := by omega
      simp [kept, gone]

/-- What the algebraic shifts shift out of `v` (R460 to R463). -/
theorem rotated_outside_mask_eq_shiftLeft (hw : w = 32 ∨ w = 64) (hn : n < w) (hr : RepeatsRotated v (64 - n) r) :
    (r &&& ~~~maskBits (n + (64 - w)) 63).setWidth w = v <<< (w - n) := by
  apply eq_of_bitAt_eq
  intro i hi
  rw [bitAt_setWidth_of_64 _ (by omega) hi, bitAt_and, bitAt_not _ (by omega), hr _ (by omega),
    bitAt_maskBits _ (by omega) (by omega), inMask_of_le (by omega), bitAt_shiftLeft _ _ hi]
  by_cases lost : i < n
  · have place : (64 - w + i + (64 - n)) % w = i + (w - n) := by rcases hw with rfl | rfl <;> omega
    have outside : ¬n + (64 - w) ≤ 64 - w + i := by omega
    have fits : i + (w - n) < w := by omega
    simp [place, outside, fits]
  · have inside : n + (64 - w) ≤ 64 - w + i ∧ 64 - w + i ≤ 63 := by omega
    have gone : ¬i + (w - n) < w := by omega
    simp [inside, gone]

/-- With the overshift bit everything is shifted out, the sign among it. -/
theorem bitAt_rotated_sign (hw : w = 32 ∨ w = 64) (hn : n < w) (hr : RepeatsRotated v (64 - n) r) :
    bitAt (r.setWidth w) n = bitAt v 0 := by
  have place : (64 - w + n + (64 - n)) % w = 0 := by rcases hw with rfl | rfl <;> omega
  rw [bitAt_setWidth_of_64 _ (by omega) hn, hr _ (by omega), place]

end

/-! ## CA of the algebraic shifts (R460 to R463) -/

section
variable {w n : Nat} (v : BitVec w)

theorem dvd_toInt_iff (hn : n ≤ w) : (2 ^ n : Int) ∣ v.toInt ↔ 2 ^ n ∣ v.toNat := by
  have period : (2 ^ n : Int) ∣ ((2 ^ w : Nat) : Int) := by
    push_cast
    exact pow_dvd_pow 2 hn
  rw [BitVec.toInt_eq_msb_cond, ← Int.natCast_dvd_natCast]
  split
  · rw [dvd_sub_left period]
    push_cast
    rfl
  · push_cast
    rfl

theorem shiftLeft_ne_zero_iff (hn : n ≤ w) : v <<< (w - n) ≠ 0 ↔ v.toInt % 2 ^ n ≠ 0 := by
  have period : 2 ^ w = 2 ^ n * 2 ^ (w - n) := (pow_mul_pow_sub 2 hn).symm
  rw [Ne, Ne, ← Int.dvd_iff_emod_eq_zero, dvd_toInt_iff v hn, ← BitVec.toNat_inj, BitVec.toNat_shiftLeft, Nat.shiftLeft_eq]
  show ¬v.toNat * 2 ^ (w - n) % 2 ^ w = 0 ↔ _
  rw [← Nat.dvd_iff_mod_eq_zero, period, Nat.mul_dvd_mul_iff_right (Nat.two_pow_pos _)]

/-- A negative number is no multiple of a power of two as wide as its own width. -/
theorem toInt_emod_ne_zero_of_neg (hneg : v.toInt < 0) (hn : w ≤ n) : v.toInt % 2 ^ n ≠ 0 := by
  intro h
  have small : v.toInt.natAbs < ((2 : Int) ^ n).natAbs := by
    have low : -2 ^ w ≤ 2 * v.toInt := BitVec.le_two_mul_toInt
    have wide : (2 : Int) ^ w ≤ 2 ^ n := pow_le_pow_right₀ (by decide) hn
    omega
  exact hneg.ne (Int.eq_zero_of_dvd_of_natAbs_lt_natAbs (Int.dvd_of_emod_eq_zero h) small)

end

theorem bitAt_xerCa : ∀ i, i < 64 → bitAt (0x20000000 : DWord) i = decide (i = 34) := by decide

/-- A GPR result with CA. -/
theorem writeResult_setCa (r : RegNum) (v : DWord) (ca rc : Bool) (s : State) :
    ∃ t, writeResult r v rc (s.setCa ca) = .next t ∧ t.gprOf r = v ∧ t.ca = ca ∧ SameOutside 0x20000000 s.xer t.xer ∧
      s.Recorded t rc (t.gprOf r) ∧ t.undef = s.undef ∧ s.FixedPoint t r := by
  obtain ⟨hca, -, -, hbits⟩ := s.setCa_spec ca
  obtain ⟨t, ht, hv, hr, hx, hu, hf⟩ := writeResult_setXer r v (s.setCa ca).xer rc s
  refine ⟨t, ht, hv, ?_, ?_, hv.symm ▸ hr, hu, hf⟩
  · rw [State.ca, hx]
    exact hca
  · rw [hx, sameOutside_iff]
    intro i hi hm
    rw [bitAt_xerCa i hi, decide_eq_false_iff_not] at hm
    exact hbits i hi hm

/-- The instruction completes: GPR `ra` holds `v / 2 ^ n` rounded down, CA whether `v` is negative and not a multiple of
`2 ^ n`, CR Field 0 the result if `rc`, and nothing else changes (R455, R460 to R463). -/
def DividesByPower (res : Res) (s : State) (ra : RegNum) (v : Int) (n : Nat) (rc : Bool) : Prop :=
  ∃ t, res = .next t ∧ (t.gprOf ra).toInt = v / 2 ^ n ∧ t.ca = (decide (v < 0) && decide (v % 2 ^ n ≠ 0)) ∧
    SameOutside 0x20000000 s.xer t.xer ∧ s.Recorded t rc (t.gprOf ra) ∧ t.undef = s.undef ∧ s.FixedPoint t ra

/-- A negative `v` loses 1-bits just where the division leaves a remainder. -/
theorem outsideMask_ne_zero_iff {w n : Nat} {v : BitVec w} {r : DWord} (hw : w = 32 ∨ w = 64) (hn : n < w)
    (hr : RepeatsRotated v (64 - n) r) (c : Bool) (hneg : v.toInt < 0) :
    (r &&& ~~~unlessOver c (maskBits (n + (64 - w)) 63)).setWidth w ≠ 0 ↔ v.toInt % 2 ^ ((if c then w else 0) + n) ≠ 0 := by
  cases c
  case false =>
    simp only [unlessOver, Bool.false_eq_true, if_false, Nat.zero_add]
    rw [rotated_outside_mask_eq_shiftLeft hw hn hr]
    exact shiftLeft_ne_zero_iff v hn.le
  case true =>
    have sign : bitAt v 0 = true := by rw [bitAt_first, BitVec.msb_eq_toInt, decide_eq_true hneg]
    have all : r &&& ~~~unlessOver true (maskBits (n + (64 - w)) 63) = r := by
      rw [unlessOver, if_pos rfl]
      exact BitVec.and_allOnes
    rw [all]
    exact iff_of_true ((ne_zero_iff_bit _).mpr ⟨n, hn, (bitAt_rotated_sign hw hn hr).trans sign⟩)
      (toInt_emod_ne_zero_of_neg v hneg (Nat.le_add_right w n))

/-- Every Shift Right Algebraic result, of a word or of a doubleword (R460 to R463). -/
theorem shiftAlgebraic_dividesByPower {w n : Nat} {v : BitVec w} {r : DWord} {word : Bool} (hw : w = if word then 32 else 64)
    (hn : n < w) (hr : RepeatsRotated v (64 - n) r) (c : Bool) (ra : RegNum) (rc : Bool) (s : State) :
    DividesByPower (shiftAlgebraic ra r (unlessOver c (maskBits (n + (64 - w)) 63)) (bitAt v 0) word rc s) s ra v.toInt
      ((if c then w else 0) + n) rc := by
  have widths : w = 32 ∨ w = 64 := by cases word <;> simp [hw]
  have narrow : ∀ y : DWord, (if word then lowWord y != 0 else y != 0) = (y.setWidth w != 0) := fun y => by
    subst hw
    cases word <;> simp [lowWord]
  obtain ⟨t, ht, hv, hca, hrest⟩ := writeResult_setCa ra (signFill r _ (bitAt v 0)) _ rc s
  refine ⟨t, ht, ?_, ?_, hrest⟩
  · rw [hv, signFill_eq_sshiftRight widths hn hr, BitVec.toInt_signExtend_of_le (by omega), BitVec.toInt_sshiftRight,
      Int.shiftRight_eq_div_pow]
    push_cast
    rfl
  · rw [hca, narrow, bitAt_first, BitVec.msb_eq_toInt]
    by_cases hneg : v.toInt < 0
    · congr 1
      rw [Bool.eq_iff_iff, bne_iff_ne, decide_eq_true_iff]
      exact outsideMask_ne_zero_iff widths hn hr c hneg
    · rw [decide_eq_false hneg, Bool.false_and, Bool.false_and]

/-- Settles O24: every shift is a rotated operand under a mask, the amount's first bit clearing the mask. -/
theorem shiftResults : Obligations.ShiftResults := by
  intro s rs ra rb sh sh5 rc x n n6 shifted
  have amount64 : n = _ := wholeAmount64_eq (s.gprOf rb)
  have amount32 : n6 = _ := wholeAmount32_eq (s.gprOf rb)
  clear_value n n6
  subst amount64 amount32
  have n64 : shiftAmount64 (s.gprOf rb) < 64 := BitVec.isLt _
  have n32 : shiftAmount32 (s.gprOf rb) < 32 := BitVec.isLt _
  have writes : ∀ {v v' : DWord}, v = v' → WritesGpr (writeResult ra v rc s) s ra v' rc := fun h => h ▸ writeResult_spec ..
  have double : ∀ {n}, n < 64 → ∀ c, shifted (shiftAlgebraic ra (rotl64 x (64 - n)) (unlessOver c (maskBits n 63))
      (bitAt x 0) false rc s) x.toInt ((if c then 64 else 0) + n) := fun hn c =>
    shiftAlgebraic_dividesByPower (w := 64) rfl hn (rotl64_repeatsRotated x _) c ra rc s
  have word : ∀ {n}, n < 32 → ∀ c, shifted (shiftAlgebraic ra (rotl32 (lowWord x) (64 - n))
      (unlessOver c (maskBits (n + 32) 63)) (bitAt x 32) true rc s) (lowWord x).toInt ((if c then 32 else 0) + n) :=
    fun hn c => by
      rw [← bitAt_lowWord x 0]
      exact shiftAlgebraic_dividesByPower (w := 32) rfl hn (rotl32_repeatsRotated _ _) c ra rc s
  have sradi := double sh.isLt false
  have srawi := word sh5.isLt false
  rw [if_neg Bool.false_ne_true, Nat.zero_add] at sradi srawi
  refine ⟨writes ?sld, writes ?srd, writes ?slw, writes ?srw, sradi, double n64 _, srawi, word n32 _⟩
  case sld =>
    exact (rotated_and_mask_eq_shiftLeft (.inr rfl) n64 (rotl64_repeatsRotated x _) _).trans (BitVec.setWidth_eq _)
  case srd =>
    exact (rotated_and_mask_eq_ushiftRight (.inr rfl) n64 (rotl64_repeatsRotated x _) _).trans (BitVec.setWidth_eq _)
  case slw => exact rotated_and_mask_eq_shiftLeft (.inl rfl) n32 (rotl32_repeatsRotated _ _) _
  case srw => exact rotated_and_mask_eq_ushiftRight (.inl rfl) n32 (rotl32_repeatsRotated _ _) _

end Sys2Proof.Machine
end

section
/-!
PROOFS, family 46_fx_sysreg.md.  Moves of the Condition Register (O35): the CR fields under FXM's mask, the one field that FXM
names, and XER[32:35].
-/
namespace Sys2Proof.Machine

/-! ## FXM (46_fx_sysreg.md R484, 49_optional.md R672) -/

/-- A CR field of the low word of a GPR. -/
theorem fld_lowWord (x : DWord) (m : BitVec 3) : fld (lowWord x) (4 * m.toNat) 4 = fld x (32 + 4 * m.toNat) 4 := by
  have hm : m.toNat < 8 := m.isLt
  apply eq_of_bitAt_eq
  intro i hi
  rw [bitAt_fld _ hi (by omega), bitAt_fld _ hi (by omega), bitAt_lowWord, Nat.add_assoc]

/-- Field `m` under the mask that FXM generates: from `x` where FXM's bit is 1, from `y` where it is 0. -/
theorem fld_select_fxmMask (fxm : BitVec 8) (x y : Word) (m : BitVec 3) :
    fld (x &&& fxmMask fxm ||| y &&& ~~~fxmMask fxm) (4 * m.toNat) 4 =
      if bitAt fxm m.toNat then fld x (4 * m.toNat) 4 else fld y (4 * m.toNat) 4 := by
  have hm : m.toNat < 8 := m.isLt
  apply eq_of_bitAt_eq
  intro i hi
  have hfield : (4 * m.toNat + i) / 4 = m.toNat := by omega
  rw [bitAt_fld _ hi (by omega), bitAt_or, bitAt_and, bitAt_and, bitAt_not _ (by omega), bitAt_fxmMask fxm _ (by omega),
    hfield]
  cases bitAt fxm m.toNat
  · rw [if_neg Bool.false_ne_true, bitAt_fld _ hi (by omega), Bool.and_false, Bool.false_or, Bool.not_false, Bool.and_true]
  · rw [if_pos rfl, bitAt_fld _ hi (by omega), Bool.and_true, Bool.not_true, Bool.and_false, Bool.or_false]

/-- FXM with the one bit `n` set names field `n`. -/
theorem fxmField_oneBit : ∀ n : BitVec 3, fxmField ((128 : BitVec 8) >>> n.toNat) = some n := by decide

/-! ## mtcrf, mtocrf and mfocrf -/

theorem execMtcrf_spec (rs : RegNum) (fxm : BitVec 8) (s : State) :
    ∃ t, execMtcrf rs fxm s = .next t ∧
      (∀ m : BitVec 3, t.crField m =
        if bitAt fxm m.toNat then fld (s.gprOf rs) (32 + 4 * m.toNat) 4 else s.crField m) ∧
      t = { s with cr := t.cr, pc := s.nextPc } := by
  refine ⟨_, rfl, fun m => ?_, rfl⟩
  rw [← fld_lowWord]
  exact fld_select_fxmMask fxm (lowWord (s.gprOf rs)) s.cr m

section
variable {fxm : BitVec 8} {s : State} (provided : s.env.hasMtocrfMfocrf = true)
include provided

theorem execMtocrf_of_field (rs : RegNum) {n : BitVec 3} (hn : fxmField fxm = some n) :
    execMtocrf rs fxm s = finish (s.setCrField n (fld (s.gprOf rs) (32 + 4 * n.toNat) 4)) := by
  rw [execMtocrf, provided, hn]
  rfl

theorem execMtocrf_of_noField (rs : RegNum) (hn : fxmField fxm = none) :
    execMtocrf rs fxm s = finish (s.setCr (s.draw 32)).drawn := by
  rw [execMtocrf, provided, hn]
  rfl

/-- Whatever FXM is, mtocrf completes and writes CR alone. -/
theorem execMtocrf_frame (rs : RegNum) :
    ∃ t, execMtocrf rs fxm s = .next t ∧ t = { s with cr := t.cr, pc := s.nextPc, undef := t.undef } := by
  cases hn : fxmField fxm with
  | none => exact ⟨_, execMtocrf_of_noField provided rs hn, rfl⟩
  | some n => exact ⟨_, execMtocrf_of_field provided rs hn, rfl⟩

/-- Whatever FXM is, mfocrf draws once and writes RT alone, with a value that holds the field FXM names. -/
theorem execMfocrf_eq (rt : RegNum) :
    ∃ v : DWord, execMfocrf rt fxm s = finish (s.setGpr rt v).drawn ∧
      ∀ n, fxmField fxm = some n → fld v (32 + 4 * n.toNat) 4 = s.crField n := by
  rw [execMfocrf, provided]
  cases fxmField fxm with
  | none => exact ⟨_, rfl, fun n hn => nomatch hn⟩
  | some n =>
    refine ⟨_, rfl, fun m hm => ?_⟩
    have hlt : n.toNat < 8 := n.isLt
    obtain rfl : n = m := Option.some.inj hm
    exact fld_setFld_same _ _ (by omega)

theorem execMfocrf_spec (rt : RegNum) :
    ∃ t, execMfocrf rt fxm s = .next t ∧ (∀ n, fxmField fxm = some n → fld (t.gprOf rt) (32 + 4 * n.toNat) 4 = s.crField n) ∧
      t.cr = s.cr ∧ t.xer = s.xer ∧ s.FixedPoint t rt := by
  obtain ⟨v, hv, hfield⟩ := execMfocrf_eq provided rt
  have hr : (s.setGpr rt v).gprOf rt = v := s.gprOf_setGpr_same rt v
  exact ⟨(s.setGpr rt v).drawn.advance, hv, fun n hn => (congrArg (fld · _ 4) hr).trans (hfield n hn), rfl, rfl,
    State.fixedPoint_of_setGpr v rfl⟩

end

/-! ## mcrxr (49_optional.md R689) -/

theorem bitAt_xerField : ∀ i, i < 64 → bitAt (0xF0000000 : DWord) i = decide (32 ≤ i ∧ i < 36) := by decide

/-- XER with bits 32:35 written: every other bit stays. -/
theorem sameOutside_setXerField (x : DWord) (v : BitVec 4) : SameOutside 0xF0000000 x (setFld x 32 v) := by
  rw [sameOutside_iff]
  intro i hi hm
  rw [bitAt_xerField i hi, decide_eq_false_iff_not] at hm
  rw [bitAt_setFld x v hi (by decide), if_neg hm]

/-- SO, OV and CA are not reserved, and bit 35 reads 0 where it holds 0. -/
theorem State.bitAt_readXer_field (s : State) {i : Nat} (hi : i < 4) (h : i < 3 ∨ bitAt s.xer (32 + i) = false) :
    bitAt (fld s.readXer 32 4) i = bitAt s.xer (32 + i) := by
  rw [bitAt_fld _ hi (by decide)]
  refine bitAt_readReserved_of _ (by omega) (h.symm.imp_right fun h3 => ?_)
  rw [bitAt_xerReserved _ (by omega)]
  exact decide_eq_false (by omega)

theorem execMcrxr_spec {s : State} (provided : s.env.hasMcrxr = true) (bf : BitVec 3) :
    ∃ t, execMcrxr bf s = .next t ∧
      (∀ i, i < 4 → i < 3 ∨ bitAt s.xer (32 + i) = false → bitAt t.cr (4 * bf.toNat + i) = bitAt s.xer (32 + i)) ∧
      s.OtherCrFields t bf ∧ t.xer = setFld s.xer 32 (0 : BitVec 4) ∧
      t = { s with cr := t.cr, xer := t.xer, pc := s.nextPc, undef := t.undef } := by
  rw [execMcrxr, provided]
  exact ⟨_, rfl, fun i hi h => (s.bitAt_setCrField bf _ hi).trans (s.bitAt_readXer_field hi h),
    s.otherCrFields_setCrField bf _, rfl, rfl⟩

/-- Settles O35: FXM with one bit set names its field, and the frames hold for every FXM. -/
theorem conditionRegisterMoves : Obligations.ConditionRegisterMoves := by
  intro s r fxm n bf one
  have hone : fxmField one = some n := fxmField_oneBit n
  refine ⟨execMtcrf_spec r fxm s, finish_setGpr_spec r (zext64 s.cr) s, fun provided => ⟨?mtocrf,
    execMtocrf_frame provided r, ?mfocrfOne, ?mfocrf⟩, fun provided => ?mcrxr⟩
  case mtocrf =>
    exact ⟨_, execMtocrf_of_field provided r hone, (s.crField_setCrField n n _).trans (if_pos rfl),
      s.otherCrFields_setCrField n _, rfl⟩
  case mfocrfOne =>
    obtain ⟨t, ht, hfield, hrest⟩ := execMfocrf_spec (fxm := one) provided r
    exact ⟨t, ht, hfield n hone, hrest⟩
  case mfocrf =>
    obtain ⟨t, ht, -, hrest⟩ := execMfocrf_spec (fxm := fxm) provided r
    exact ⟨t, ht, hrest⟩
  case mcrxr =>
    obtain ⟨t, ht, hbits, hother, hxer, hframe⟩ := execMcrxr_spec provided bf
    refine ⟨t, ht, hbits 0 (by decide) (.inl (by decide)), hbits 1 (by decide) (.inl (by decide)),
      hbits 2 (by decide) (.inl (by decide)), fun h => (hbits 3 (by decide) (.inr h)).trans h, hother, ?_, ?_, hframe⟩
    · rw [hxer]; exact fld_setFld_same s.xer 0 (by decide)
    · rw [hxer]; exact sameOutside_setXerField s.xer 0

end Sys2Proof.Machine
end

section
/-!
PROOFS, family 47_fp_model.md.  The fields of a floating-point pattern (47_fp_model.md R508 to R510).
-/
namespace Sys2Proof.Machine

theorem fpExp_eq (x : DWord) : fpExp x = x.toNat / 2 ^ 52 % 2 ^ 11 := by
  simp [fpExp, fld, Nat.shiftRight_eq_div_pow]

theorem fpFrac_eq (x : DWord) : fpFrac x = x.toNat % 2 ^ 52 := by
  simp [fpFrac, fld]

theorem fpSign_eq (x : DWord) : fpSign x = decide (2 ^ 63 ≤ x.toNat) := (bitAt_sign x).1

theorem fpExp_lt (x : DWord) : fpExp x < 2048 := (fld x 1 11).isLt

theorem fpFrac_lt (x : DWord) : fpFrac x < 2 ^ 52 := (fld x 12 52).isLt

theorem eq_of_fields {x y : DWord} (hs : fpSign x = fpSign y) (he : fpExp x = fpExp y) (hf : fpFrac x = fpFrac y) :
    x = y := by
  rw [fpSign_eq, fpSign_eq, decide_eq_decide] at hs
  rw [fpExp_eq, fpExp_eq] at he
  rw [fpFrac_eq, fpFrac_eq] at hf
  apply BitVec.eq_of_toNat_eq
  omega

theorem toNat_pattern (s : Bool) (e : BitVec 11) (m : BitVec 52) :
    (BitVec.ofBool s ++ e ++ m).toNat = s.toNat * 2 ^ 63 + e.toNat * 2 ^ 52 + m.toNat := by
  rw [BitVec.toNat_append, BitVec.toNat_append, ← Nat.shiftLeft_add_eq_or_of_lt m.isLt,
    ← Nat.shiftLeft_add_eq_or_of_lt e.isLt, BitVec.toNat_ofBool, Nat.shiftLeft_eq, Nat.shiftLeft_eq]
  ring

/-- The fields of an assembled pattern. -/
theorem fields_pattern (s : Bool) (e : BitVec 11) (m : BitVec 52) :
    fpSign (BitVec.ofBool s ++ e ++ m) = s ∧ fpExp (BitVec.ofBool s ++ e ++ m) = e.toNat ∧
      fpFrac (BitVec.ofBool s ++ e ++ m) = m.toNat := by
  have he := e.isLt
  have hm := m.isLt
  rw [fpSign_eq, fpExp_eq, fpFrac_eq, toNat_pattern]
  cases s <;> simp <;> omega

@[simp] theorem fpSign_fpZero (s : Bool) : fpSign (fpZero s) = s := by cases s <;> decide
@[simp] theorem fpExp_fpZero (s : Bool) : fpExp (fpZero s) = 0 := by cases s <;> decide
@[simp] theorem fpFrac_fpZero (s : Bool) : fpFrac (fpZero s) = 0 := by cases s <;> decide
@[simp] theorem fpSign_fpInf (s : Bool) : fpSign (fpInf s) = s := by cases s <;> decide
@[simp] theorem fpExp_fpInf (s : Bool) : fpExp (fpInf s) = 2047 := by cases s <;> decide
@[simp] theorem fpFrac_fpInf (s : Bool) : fpFrac (fpInf s) = 0 := by cases s <;> decide

theorem bitAt_negative : ∀ i, i < 64 → bitAt (0x8000000000000000 : DWord) i = decide (i = 0) := by decide

@[simp] theorem fpSign_fpNegated (x : DWord) : fpSign (fpNegated x) = !fpSign x := by
  rw [fpSign, fpNegated, bitAt_xor, bitAt_negative 0 (by decide), decide_eq_true rfl, Bool.bne_true]; rfl

theorem fld_fpNegated (x : DWord) {start len : Nat} (h : 1 ≤ start) (hl : start + len ≤ 64) :
    fld (fpNegated x) start len = fld x start len :=
  fld_eq_of_bits hl fun i h1 h2 => by
    rw [fpNegated, bitAt_xor, bitAt_negative i (by omega), decide_eq_false (by omega)]; simp

@[simp] theorem fpExp_fpNegated (x : DWord) : fpExp (fpNegated x) = fpExp x :=
  congrArg BitVec.toNat (fld_fpNegated x (by decide) (by decide))

@[simp] theorem fpFrac_fpNegated (x : DWord) : fpFrac (fpNegated x) = fpFrac x :=
  congrArg BitVec.toNat (fld_fpNegated x (by decide) (by decide))

@[simp] theorem isNaN_fpNegated (x : DWord) : isNaN (fpNegated x) = isNaN x := by simp [isNaN]
@[simp] theorem isInf_fpNegated (x : DWord) : isInf (fpNegated x) = isInf x := by simp [isInf]
@[simp] theorem isZero_fpNegated (x : DWord) : isZero (fpNegated x) = isZero x := by simp [isZero]

/-- A pattern is finite: no NaN and no infinity. -/
theorem finite_iff (x : DWord) : isNaN x = false ∧ isInf x = false ↔ fpExp x ≠ 2047 := by
  simp [isNaN, isInf]
  tauto

end Sys2Proof.Machine
end

section
/-!
PROOFS, family 47_fp_model.md.  The value of a finite pattern, and what `packD` assembles (47_fp_model.md R508, R556).
-/
namespace Sys2Proof.Machine

/-! ## Values of finite patterns -/

theorem fpSig_lt (x : DWord) : fpSig x < 2 ^ 53 := by
  have := fpFrac_lt x
  unfold fpSig
  split <;> omega

theorem fpRat_eq (x : DWord) : fpRat x = (if fpSign x then -1 else 1) * (fpSig x * (2 : ℚ) ^ fpWeight x) := by
  unfold fpRat fpVal
  cases fpSign x <;> simp

theorem abs_fpRat_eq (x : DWord) : |fpRat x| = fpSig x * (2 : ℚ) ^ fpWeight x := by
  rw [← Rat.cast_inj (α := ℝ), Rat.cast_abs, abs_fpRat]
  push_cast
  rfl

theorem isZero_iff (x : DWord) : isZero x = true ↔ fpSig x = 0 := by
  have := fpFrac_lt x
  simp only [isZero, fpSig, Bool.and_eq_true, beq_iff_eq]
  split <;> omega

theorem fpRat_eq_zero_iff (x : DWord) : fpRat x = 0 ↔ isZero x = true := by
  have hp : (2 : ℚ) ^ fpWeight x ≠ 0 := by positivity
  rw [isZero_iff, ← abs_eq_zero, abs_fpRat_eq, mul_eq_zero, or_iff_left hp, Nat.cast_eq_zero]

theorem fpRat_fpNegated (x : DWord) : fpRat (fpNegated x) = -fpRat x := by
  have hs : fpSig (fpNegated x) = fpSig x := by simp [fpSig]
  have hw : fpWeight (fpNegated x) = fpWeight x := by simp [fpWeight]
  rw [fpRat_eq, fpRat_eq, hs, hw, fpSign_fpNegated]
  cases fpSign x <;> simp

/-- The sign of a nonzero value is the sign bit. -/
theorem fpRat_neg_iff {x : DWord} (h : isZero x = false) : fpRat x < 0 ↔ fpSign x = true := by
  have hs : (0 : ℚ) < fpSig x := by
    rw [Nat.cast_pos, Nat.pos_iff_ne_zero, Ne, ← isZero_iff, h]
    decide
  have hp : (0 : ℚ) < fpSig x * 2 ^ fpWeight x := by positivity
  rw [fpRat_eq]
  cases fpSign x
  · simp [hp.le]
  · simp only [if_true, iff_true]; linarith

/-- The magnitude of a pattern in units of `2^-1074`. -/
def fpUnits (x : DWord) : Nat := fpSig x * 2 ^ (fpExp x - 1)

theorem abs_fpRat_units (x : DWord) : |fpRat x| = fpUnits x * (2 : ℚ) ^ (-1074 : ℤ) := by
  have hw : fpWeight x = (fpExp x - 1 : ℕ) + (-1074 : ℤ) := by
    unfold fpWeight
    split <;> omega
  rw [abs_fpRat_eq, hw, zpow_add₀ two_ne_zero, zpow_natCast, fpUnits, Nat.cast_mul, Nat.cast_pow,
    Nat.cast_ofNat, mul_assoc]

/-- A pattern of larger exponent has the larger magnitude. -/
theorem fpUnits_lt {x y : DWord} (h : fpExp x < fpExp y) : fpUnits x < fpUnits y := by
  have hy : 2 ^ 52 ≤ fpSig y := by rw [fpSig, if_neg (by omega)]; exact Nat.le_add_right _ _
  rcases Nat.eq_zero_or_pos (fpExp x) with h0 | h0
  · have hx : fpSig x < 2 ^ 52 := by rw [fpSig, if_pos h0]; exact fpFrac_lt x
    calc fpUnits x = fpSig x := by rw [fpUnits, h0, Nat.zero_sub, pow_zero, mul_one]
      _ < fpSig y := by omega
      _ ≤ fpUnits y := Nat.le_mul_of_pos_right _ (by positivity)
  · calc fpUnits x < 2 ^ 53 * 2 ^ (fpExp x - 1) := Nat.mul_lt_mul_of_pos_right (fpSig_lt x) (by positivity)
      _ = 2 ^ 52 * 2 ^ fpExp x := by rw [← pow_add, ← pow_add]; congr 1; omega
      _ ≤ fpSig y * 2 ^ (fpExp y - 1) := Nat.mul_le_mul hy (Nat.pow_le_pow_right (by decide) (by omega))

/-- A finite pattern is determined by its sign and its magnitude. -/
theorem eq_of_magnitude {x y : DWord} (hs : fpSign x = fpSign y) (h : |fpRat x| = |fpRat y|) : x = y := by
  have hp : (2 : ℚ) ^ (-1074 : ℤ) ≠ 0 := by positivity
  rw [abs_fpRat_units, abs_fpRat_units, mul_left_inj' hp, Nat.cast_inj] at h
  have he : fpExp x = fpExp y := by
    rcases lt_trichotomy (fpExp x) (fpExp y) with hlt | heq | hlt
    · exact absurd h (fpUnits_lt hlt).ne
    · exact heq
    · exact absurd h (fpUnits_lt hlt).ne'
  rw [fpUnits, fpUnits, he, Nat.mul_left_inj (by positivity), fpSig, fpSig, he] at h
  refine eq_of_fields hs he ?_
  split at h <;> omega

/-! ## PackD (47_fp_model.md R556) -/

theorem scale_of_nonneg (n : Nat) {d : Int} (h : 0 ≤ d) : scale n d = n * 2 ^ d.toNat := if_pos h

theorem scale_of_neg (n : Nat) {d : Int} (h : d < 0) : scale n d = n / 2 ^ (-d).toNat := if_neg (not_le.mpr h)

/-- Scaling up keeps the number. -/
theorem scale_zpow (n : Nat) {d : Int} (h : 0 ≤ d) (q : Int) : (scale n d : ℚ) * 2 ^ (q - d) = n * 2 ^ q := by
  rw [scale_of_nonneg n h, Nat.cast_mul, Nat.cast_pow, Nat.cast_ofNat, ← zpow_natCast, Int.toNat_of_nonneg h, mul_assoc,
    ← zpow_add₀ two_ne_zero, add_sub_cancel]

/-- A nonzero significand of at most 53 bits, or 2^53, aligned to 53 bits: still the same number. -/
theorem scale_align {n : Nat} (h0 : n ≠ 0) (hn : n ≤ 2 ^ 53) (q : Int) :
    2 ^ 52 ≤ scale n (52 - n.log2) ∧ scale n (52 - n.log2) < 2 ^ 53 ∧
      (scale n (52 - n.log2) : ℚ) * 2 ^ ((n.log2 : ℤ) + q - 52) = n * 2 ^ q := by
  have hl := Nat.log2_self_le h0
  have hu := @Nat.lt_log2_self n
  rcases Nat.lt_or_ge n (2 ^ 53) with hlt | hge
  · have hk : n.log2 ≤ 52 := Nat.lt_succ_iff.mp ((Nat.log2_lt h0).mpr hlt)
    have hd : (0 : ℤ) ≤ 52 - n.log2 := by omega
    have he : (n.log2 : ℤ) + q - 52 = q - (52 - n.log2) := by ring
    have ht : (52 - (n.log2 : ℤ)).toNat = 52 - n.log2 := by omega
    refine ⟨?_, ?_, by rw [he]; exact scale_zpow n hd q⟩
    · rw [scale_of_nonneg n hd, ht]
      calc 2 ^ 52 = 2 ^ n.log2 * 2 ^ (52 - n.log2) := by rw [← pow_add]; congr 1; omega
        _ ≤ n * 2 ^ (52 - n.log2) := Nat.mul_le_mul_right _ hl
    · rw [scale_of_nonneg n hd, ht]
      calc n * 2 ^ (52 - n.log2) < 2 ^ (n.log2 + 1) * 2 ^ (52 - n.log2) := Nat.mul_lt_mul_of_pos_right hu (by positivity)
        _ = 2 ^ 53 := by rw [← pow_add]; congr 1; omega
  · obtain rfl : n = 2 ^ 53 := le_antisymm hn hge
    have hs : scale (2 ^ 53) (52 - (2 ^ 53 : ℕ).log2) = 2 ^ 52 := by
      rw [Nat.log2_two_pow]; decide
    have he : (((2 ^ 53 : ℕ).log2 : ℕ) : ℤ) + q - 52 = q + 1 := by rw [Nat.log2_two_pow]; push_cast; ring
    rw [hs, he, zpow_add_one₀ two_ne_zero]
    refine ⟨le_rfl, by decide, ?_⟩
    push_cast
    ring

/-- What `packD` assembles of a significand in a normalized number's range. -/
theorem packD_normal (s : Bool) {n : Nat} (h0 : n ≠ 0) (hn : n ≤ 2 ^ 53) {q : Int} (hlo : -1022 ≤ (n.log2 : ℤ) + q)
    (hhi : (n.log2 : ℤ) + q ≤ 1023) :
    fpSign (packD s n q) = s ∧ (fpExp (packD s n q) : ℤ) = n.log2 + q + 1023 ∧
      2 ^ 52 + fpFrac (packD s n q) = scale n (52 - n.log2) := by
  obtain ⟨hm1, hm2, -⟩ := scale_align h0 hn q
  have hp : packD s n q = BitVec.ofBool s ++ BitVec.ofNat 11 ((n.log2 : ℤ) + q + 1023).toNat ++
      BitVec.ofNat 52 (scale n (52 - n.log2)) := by
    rw [packD, if_neg h0]; exact if_pos hlo
  obtain ⟨hs, he, hf⟩ := fields_pattern s (BitVec.ofNat 11 ((n.log2 : ℤ) + q + 1023).toNat)
    (BitVec.ofNat 52 (scale n (52 - n.log2)))
  rw [hp, hs, he, hf, BitVec.toNat_ofNat, BitVec.toNat_ofNat]
  refine ⟨rfl, ?_, ?_⟩ <;> omega

/-- What `packD` assembles of a significand below every normalized number. -/
theorem packD_denormal (s : Bool) {n : Nat} (h0 : n ≠ 0) {q : Int} (hq : -1074 ≤ q) (hhi : (n.log2 : ℤ) + q < -1022) :
    fpSign (packD s n q) = s ∧ fpExp (packD s n q) = 0 ∧ fpFrac (packD s n q) = scale n (q + 1074) := by
  have hp : packD s n q = BitVec.ofBool s ++ (0 : BitVec 11) ++ BitVec.ofNat 52 (scale n (q + 1074)) := by
    rw [packD, if_neg h0]; exact if_neg (not_le.mpr hhi)
  have hm : scale n (q + 1074) < 2 ^ 52 := by
    rw [scale_of_nonneg n (by omega)]
    calc n * 2 ^ (q + 1074).toNat < 2 ^ (n.log2 + 1) * 2 ^ (q + 1074).toNat :=
          Nat.mul_lt_mul_of_pos_right Nat.lt_log2_self (by positivity)
      _ = 2 ^ (n.log2 + 1 + (q + 1074).toNat) := (pow_add ..).symm
      _ ≤ 2 ^ 52 := Nat.pow_le_pow_right (by decide) (by omega)
  obtain ⟨hs, he, hf⟩ := fields_pattern s 0 (BitVec.ofNat 52 (scale n (q + 1074)))
  rw [hp, hs, he, hf, BitVec.toNat_ofNat, Nat.mod_eq_of_lt hm]
  exact ⟨rfl, rfl, rfl⟩

theorem packD_zero (s : Bool) (q : Int) : packD s 0 q = fpZero s := rfl

/-- `packD` gives the pattern of its sign and magnitude, wherever double format represents it. -/
theorem packD_hasMagnitude (s : Bool) {n : Nat} {q : Int} (hn : n ≤ 2 ^ 53) (hlo : -1074 ≤ q ∨ -1022 ≤ (n.log2 : ℤ) + q)
    (hhi : (n.log2 : ℤ) + q ≤ 1023) : HasMagnitude (packD s n q) s n q := by
  have finite : fpExp (packD s n q) ≠ 2047 → fpSign (packD s n q) = s → |fpRat (packD s n q)| = n * 2 ^ q →
      HasMagnitude (packD s n q) s n q := fun h hs hv =>
    ⟨((finite_iff _).mpr h).1, ((finite_iff _).mpr h).2, hs, hv⟩
  rcases eq_or_ne n 0 with rfl | h0
  · rw [packD_zero] at finite ⊢
    refine finite (by simp) (fpSign_fpZero s) ?_
    rw [(fpRat_eq_zero_iff _).mpr (by simp [isZero])]
    simp
  · rcases lt_or_ge ((n.log2 : ℤ) + q) (-1022) with hd | hd
    · have hq : -1074 ≤ q := hlo.resolve_right (by omega)
      obtain ⟨hs, he, hf⟩ := packD_denormal s h0 hq hd
      refine finite (by omega) hs ?_
      have hw : (-1074 : ℤ) = q - (q + 1074) := by ring
      rw [abs_fpRat_eq, fpSig, fpWeight, if_pos he, if_pos he, hf, hw]
      exact scale_zpow n (by omega) q
    · obtain ⟨hs, he, hf⟩ := packD_normal s h0 hn hd hhi
      have he0 : fpExp (packD s n q) ≠ 0 := by omega
      refine finite (by omega) hs ?_
      have hw : (fpExp (packD s n q) : ℤ) - 1075 = n.log2 + q - 52 := by omega
      rw [abs_fpRat_eq, fpSig, fpWeight, if_neg he0, if_neg he0, hf, hw]
      exact (scale_align h0 hn q).2.2

end Sys2Proof.Machine
end

section
/-!
PROOFS, family 47_fp_model.md.  The FPSCR that a computation writes, and what a rounding makes of a real number (47_fp_model.md R523, R553, R554).
-/
namespace Sys2Proof.Machine

/-! ## The status a computation writes -/

/-- The FPSCR `f` with the exception bits `m` added and FR, FI and FPRF written. -/
def fpStatus (f m : Word) (fr fi : Bool) (c : BitVec 5) : Word := setFprf (setFrFi f fr fi ||| m) c

theorem bitAt_setFrFi (f : Word) (fr fi : Bool) {i : Nat} (hi : i < 32) :
    bitAt (setFrFi f fr fi) i = if i = 14 then fi else if i = 13 then fr else bitAt f i := by
  rw [setFrFi, bitAt_setBitAt _ _ hi (by decide), bitAt_setBitAt _ _ hi (by decide)]

theorem bitAt_setFprf (f : Word) (c : BitVec 5) {i : Nat} (hi : i < 32) (h : i < 15 ∨ 20 ≤ i) :
    bitAt (setFprf f c) i = bitAt f i := by
  rw [setFprf, bitAt_setFld _ _ hi (by decide), if_neg (by omega)]

theorem fld_setFprf (f : Word) (c : BitVec 5) : fld (setFprf f c) 15 5 = c := fld_setFld_same f c (by decide)

section
variable {f m : Word} (fr fi : Bool)

theorem fpArith_frfi (h : BitsWithin fpArithBits m) {i : Nat} (h1 : 13 ≤ i) (h2 : i ≤ 19) : bitAt m i = false :=
  h.bit (by rw [bitAt_fpArithBits i (by omega)]; exact decide_eq_false (by omega))

/-- FR and FI, and the bits around them, where exception bits are added. -/
theorem bitAt_setFrFi_or (h : BitsWithin fpArithBits m) :
    bitAt (setFrFi f fr fi ||| m) 13 = fr ∧ bitAt (setFrFi f fr fi ||| m) 14 = fi := by
  rw [bitAt_or, bitAt_or, bitAt_setFrFi f fr fi (by decide), bitAt_setFrFi f fr fi (by decide),
    fpArith_frfi h (by decide) (by decide), fpArith_frfi h (by decide) (by decide), Bool.or_false, Bool.or_false]
  exact ⟨rfl, rfl⟩

/-- Exception bits may be added before FR and FI are written or after. -/
theorem setFrFi_or (h : BitsWithin fpArithBits m) : setFrFi (f ||| m) fr fi = setFrFi f fr fi ||| m := by
  apply eq_of_bitAt_eq
  intro i hi
  rw [bitAt_or, bitAt_setFrFi _ fr fi hi, bitAt_setFrFi _ fr fi hi, bitAt_or]
  have hm := fun h1 h2 => fpArith_frfi (i := i) h h1 h2
  split
  · rw [hm (by omega) (by omega), Bool.or_false]
  · split
    · rw [hm (by omega) (by omega), Bool.or_false]
    · rfl

/-- What `fpStatus` leaves: FR, FI, FPRF, and the exception bits added to `f` elsewhere. -/
theorem fpStatus_spec (h : BitsWithin fpArithBits m) (c : BitVec 5) :
    bitAt (fpStatus f m fr fi c) 13 = fr ∧ bitAt (fpStatus f m fr fi c) 14 = fi ∧ fld (fpStatus f m fr fi c) 15 5 = c ∧
      SameOutside fpResultBits (f ||| m) (fpStatus f m fr fi c) := by
  obtain ⟨h13, h14⟩ := bitAt_setFrFi_or fr fi h (f := f)
  rw [fpStatus, bitAt_setFprf _ c (by decide) (by decide), bitAt_setFprf _ c (by decide) (by decide)]
  exact ⟨h13, h14, fld_setFprf _ c, ((sameOutside_setFrFi f fr fi).or m).trans (sameOutside_setFprf _ c)⟩

theorem setRounded_or (f m : Word) (fr fi : Bool) :
    setRounded f fr fi ||| m = setFrFi f fr fi ||| (m ||| fpWhen fi fpXx) := by
  rw [setRounded, BitVec.or_assoc, BitVec.or_comm m]

end

/-! ## What roundings do (47_fp_model.md R523) -/

/-- A power of 2 below a magnitude, and the next one above it. -/
theorem Magnitude.Describes.exponent_bounds {m : Magnitude} {v : ℝ} (h : m.Describes v) (h0 : m.sig ≠ 0) :
    (2 : ℝ) ^ m.exponent ≤ v ∧ v < (2 : ℝ) ^ (m.exponent + 1) := by
  have hu : (0 : ℝ) < 2 ^ m.exp := by positivity
  have hlo : ((2 : ℝ) ^ m.sig.log2) ≤ m.sig := by exact_mod_cast Nat.log2_self_le h0
  have hhi : (m.sig : ℝ) + 1 ≤ (2 : ℝ) ^ (m.sig.log2 + 1) := by exact_mod_cast @Nat.lt_log2_self m.sig
  have hv : m.sig * (2 : ℝ) ^ m.exp ≤ v ∧ v < (m.sig + 1) * (2 : ℝ) ^ m.exp := by
    unfold Magnitude.Describes at h
    split at h
    · exact ⟨h.1.le, h.2⟩
    · rw [h]; exact ⟨le_rfl, by linarith⟩
  rw [Magnitude.exponent, add_right_comm, zpow_add₀ two_ne_zero, zpow_add₀ two_ne_zero, ← Nat.cast_succ,
    zpow_natCast, zpow_natCast]
  exact ⟨(mul_le_mul_of_nonneg_right hlo hu.le).trans hv.1, hv.2.trans_le (mul_le_mul_of_nonneg_right hhi hu.le)⟩

section
variable {s : Bool} {v : ℝ} {q : ℤ} {mode : BitVec 2} {r : Rounded} (h : RoundsAt s v q mode r)
include h

theorem RoundsAt.units_le {k : ℕ} (hv : v < (2 : ℝ) ^ (q + k)) : r.units ≤ 2 ^ k := by
  obtain ⟨n, rem, hn, h0, -, -, -, hu⟩ := h
  have hq : (0 : ℝ) < 2 ^ q := by positivity
  have hlt : (n : ℝ) < 2 ^ k := by
    rw [zpow_add₀ two_ne_zero, zpow_natCast, mul_comm] at hv
    exact lt_of_mul_lt_mul_right (by linarith) hq.le
  have : n < 2 ^ k := by exact_mod_cast hlt
  rw [hu]
  split <;> omega

theorem RoundsAt.le_units {k : ℕ} (hv : (2 : ℝ) ^ (q + k) ≤ v) : 2 ^ k ≤ r.units := by
  obtain ⟨n, rem, hn, -, h1, -, -, hu⟩ := h
  have hq : (0 : ℝ) < 2 ^ q := by positivity
  have hlt : (2 : ℝ) ^ k < n + 1 := by
    rw [zpow_add₀ two_ne_zero, zpow_natCast, mul_comm] at hv
    exact lt_of_mul_lt_mul_right (by linarith) hq.le
  have : 2 ^ k < n + 1 := by exact_mod_cast hlt
  rw [hu]
  split <;> omega

/-- A multiple of the unit is rounded to itself. -/
theorem RoundsAt.of_multiple {m : ℕ} (hv : v = m * (2 : ℝ) ^ q) : r = ⟨m, false, false⟩ := by
  obtain ⟨n, rem, hn, h0, h1, hinexact, hinc, hu⟩ := h
  have hq : (0 : ℝ) < 2 ^ q := by positivity
  have hle : (n : ℝ) ≤ m := le_of_mul_le_mul_right (by linarith) hq
  have hlt : (m : ℝ) < n + 1 := lt_of_mul_lt_mul_right (by linarith) hq.le
  obtain rfl : n = m := le_antisymm (by exact_mod_cast hle) (Nat.lt_succ_iff.mp (by exact_mod_cast hlt))
  have hrem : rem = 0 := by linarith
  have hi : r.inexact = false := by rw [← Bool.not_eq_true, hinexact]; exact not_not.mpr hrem
  have hc : r.inc = false := by
    rw [← Bool.not_eq_true, hinc, hrem]
    have h2 := hq.ne
    have h3 := hq.le
    simp [h2, h3]
  rw [hc] at hu
  cases r
  simp_all

/-- The rounding of a number is determined. -/
theorem RoundsAt.unique {r' : Rounded} (h' : RoundsAt s v q mode r') : r = r' := by
  obtain ⟨n, rem, hn, h0, h1, hinexact, hinc, hu⟩ := h
  obtain ⟨n', rem', hn', h0', h1', hinexact', hinc', hu'⟩ := h'
  have hq : (0 : ℝ) < 2 ^ q := by positivity
  have hle : (n : ℝ) < n' + 1 := lt_of_mul_lt_mul_right (by linarith) hq.le
  have hge : (n' : ℝ) < n + 1 := lt_of_mul_lt_mul_right (by linarith) hq.le
  have hle' : n < n' + 1 := by exact_mod_cast hle
  have hge' : n' < n + 1 := by exact_mod_cast hge
  obtain rfl : n = n' := by omega
  obtain rfl : rem = rem' := by linarith
  have hi : r.inexact = r'.inexact := by rw [Bool.eq_iff_iff, hinexact, hinexact']
  have hc : r.inc = r'.inc := by rw [Bool.eq_iff_iff, hinc, hinc']
  cases r
  cases r'
  simp_all

end

end Sys2Proof.Machine
end

section
/-!
PROOFS, family 47_fp_model.md.  `roundResult` makes of the exact result what the spec's tables say (47_fp_model.md R546 to R556).
-/
namespace Sys2Proof.Machine

/-! ## The two precisions -/

/-- What rounding uses of the parameters of a precision (47_fp_model.md R507, R547). -/
structure FpFormat.Standard (fmt : FpFormat) : Prop where
  known    : fmt = .dp ∨ fmt = .sp
  p_pos    : 1 ≤ fmt.p
  p_le     : fmt.p ≤ 53
  least    : -1074 ≤ fmt.emin - ((fmt.p : ℤ) - 1)
  emin_ge  : -1022 ≤ fmt.emin
  emin_le  : fmt.emin ≤ fmt.emax
  emax_le  : fmt.emax ≤ 1023
  adj_pos  : 0 < fmt.adj
  adj_emin : fmt.emin + fmt.adj ≤ 1023
  adj_emax : -1022 ≤ fmt.emax - fmt.adj
  overflow : ∀ sg mode, overflowDefault fmt sg mode = overflowTable fmt sg mode

theorem FpFormat.dp_standard : FpFormat.dp.Standard :=
  ⟨.inl rfl, by decide, by decide, by decide, by decide, by decide, by decide, by decide, by decide, by decide, by decide⟩

theorem FpFormat.sp_standard : FpFormat.sp.Standard :=
  ⟨.inr rfl, by decide, by decide, by decide, by decide, by decide, by decide, by decide, by decide, by decide, by decide⟩

/-! ## RoundResult over the real numbers (47_fp_model.md R546 to R556) -/

/-- The outcome `p` of a computation, with the FPSCR `f` before it, is the rounding outcome `o`. -/
structure FpOutcome.IsRounded (p : FpOutcome) (f : Word) (o : RoundedOutcome) : Prop where
  value  : p.frt = some o.value
  adds   : p.Adds f o.bits
  fr     : ∀ b, o.fr = some b → bitAt p.fpscr 13 = b
  fi     : bitAt p.fpscr 14 = o.fi
  fprf   : fld p.fpscr 15 5 = o.fprf
  caused : p.caused = o.caused

/-- The last place of the rounding of a result of exponent `e`: that of the precision, or of the least number where a Tiny
result is denormalized. -/
def FpFormat.unit (fmt : FpFormat) (f : Word) (e : ℤ) : ℤ :=
  if e < fmt.emin ∧ bitAt f 26 = false then fmt.emin - (fmt.p - 1) else e - (fmt.p - 1)

/-- `o` delivers the rounding `r`, in units of `2^q`, with its exponent adjusted by `d`, and the exception bits `bits`. -/
def RoundedOutcome.RoundsTo (o : RoundedOutcome) (fmt : FpFormat) (sg : Bool) (r : Rounded) (q d : ℤ) (bits : Word) : Prop :=
  HasMagnitude o.value sg r.units (q + d) ∧ o.bits = bits ||| fpWhen r.inexact fpXx ∧ o.fr = some r.inc ∧ o.fi = r.inexact ∧
    o.fprf = if d = 0 then fpClass fmt o.value else normalClass sg

/-- The exact result `y`, of sign `sg` and exponent `e`, rounds to `r`. -/
structure RoundsIn (fmt : FpFormat) (f : Word) (y : ℝ) (sg : Bool) (e : ℤ) (r : Rounded) : Prop where
  sign   : sg = true ↔ y < 0
  lower  : (2 : ℝ) ^ e ≤ |y|
  upper  : |y| < (2 : ℝ) ^ (e + 1)
  rounds : RoundsAt sg |y| (fmt.unit f e) (fld f 30 2) r

section
variable {fmt : FpFormat} {f : Word} {y : ℝ} {sg : Bool} {e : ℤ} {r : Rounded} {o : RoundedOutcome}

theorem FpFormat.unit_denormal (h : e < fmt.emin) (hu : bitAt f 26 = false) : fmt.unit f e = fmt.emin - (fmt.p - 1) :=
  if_pos ⟨h, hu⟩

theorem FpFormat.unit_of_emin_le (h : fmt.emin ≤ e) : fmt.unit f e = e - (fmt.p - 1) :=
  if_neg fun c => absurd c.1 (not_lt.mpr h)

theorem FpFormat.unit_of_enabled (hu : bitAt f 26 = true) : fmt.unit f e = e - (fmt.p - 1) :=
  if_neg fun c => by simp [hu] at c

/-- The five cases of `RoundResult`: Tiny, disabled and enabled, Overflow, enabled and disabled, and in range. -/
theorem RoundsIn.roundedAs (h : RoundsIn fmt f y sg e r) (q : ℤ) (hq : fmt.unit f e = q)
    (denormal : e < fmt.emin → bitAt f 26 = false →
      o.RoundsTo fmt sg r q 0 (fpWhen r.inexact fpUx) ∧ o.caused = (r.inexact && bitAt f 28))
    (underflow : e < fmt.emin → bitAt f 26 = true → o.RoundsTo fmt sg r q fmt.adj fpUx ∧ o.caused = true)
    (overflow : fmt.emin ≤ e → (2 : ℝ) ^ (fmt.emax + 1) ≤ r.units * (2 : ℝ) ^ q → bitAt f 25 = true →
      o.RoundsTo fmt sg r q (-fmt.adj) fpOx ∧ o.caused = true)
    (saturated : fmt.emin ≤ e → (2 : ℝ) ^ (fmt.emax + 1) ≤ r.units * (2 : ℝ) ^ q → bitAt f 25 = false →
      o.value = overflowTable fmt sg (fld f 30 2) ∧ o.bits = fpOx ||| fpXx ∧ o.fr = none ∧ o.fi = true ∧
        o.fprf = fpClass fmt o.value ∧ o.caused = bitAt f 28)
    (inRange : fmt.emin ≤ e → r.units * (2 : ℝ) ^ q < (2 : ℝ) ^ (fmt.emax + 1) →
      o.RoundsTo fmt sg r q 0 0 ∧ o.caused = (r.inexact && bitAt f 28)) : RoundedAs fmt y f o := by
  subst hq
  exact ⟨sg, e, r, h.sign, h.lower, h.upper, h.rounds, denormal, underflow, fun ho => overflow ho.1 ho.2,
    fun ho => saturated ho.1 ho.2, fun he hn => inRange he (lt_of_not_ge fun hc => hn ⟨he, hc⟩)⟩

/-- A rounding delivered is what its bits, FR, FI and FPRF say. -/
theorem isRounded_of_status {x : DWord} {bits : Word} {c : BitVec 5} {caused : Bool} (hm : BitsWithin fpArithBits bits)
    (hc : caused = fpEnabled f (bits ||| fpWhen r.inexact fpXx)) :
    FpOutcome.IsRounded ⟨setFprf (setRounded f r.inc r.inexact ||| bits) c, some x, caused⟩ f
      ⟨x, bits ||| fpWhen r.inexact fpXx, some r.inc, r.inexact, c, caused⟩ := by
  have hb : BitsWithin fpArithBits (bits ||| fpWhen r.inexact fpXx) := hm.or (.when (by decide) _)
  obtain ⟨hfr, hfi, hcl, hout⟩ := fpStatus_spec r.inc r.inexact hb c (f := f)
  rw [setRounded_or]
  exact ⟨rfl, ⟨hb, hout, hc⟩, fun b hbb => hfr.trans (Option.some.inj hbb), hfi, hcl, rfl⟩

theorem roundTiny_isRounded (v : Magnitude) (hu : bitAt f 26 = false) {q : ℤ} (hq : fmt.emin - ((fmt.p : ℤ) - 1) = q)
    (hr : roundQ sg v q (fld f 30 2) = r) :
    (roundTiny fmt sg v f).IsRounded f ⟨packD sg r.units q, fpWhen r.inexact fpUx ||| fpWhen r.inexact fpXx, some r.inc,
      r.inexact, fpClass fmt (packD sg r.units q), r.inexact && bitAt f 28⟩ := by
  subst hq hr
  refine isRounded_of_status (.when (by decide) _) ?_
  have he : fpUe f = false := hu
  simp only [fpEnabled_or, fpEnabled_when, fpEnabled_single, he, Bool.and_false, Bool.false_or, fpXe]

theorem roundAdjusted_isRounded (sg : Bool) (r : Rounded) (q d : ℤ) {bits : Word} (hm : BitsWithin fpArithBits bits)
    (he : fpEnabled f bits = true) :
    (roundAdjusted sg r q d bits f).IsRounded f ⟨packD sg r.units (q + d), bits ||| fpWhen r.inexact fpXx, some r.inc,
      r.inexact, normalClass sg, true⟩ :=
  isRounded_of_status hm (by rw [fpEnabled_or, he, Bool.true_or])

theorem rounded_isRounded (r : Rounded) (c : BitVec 5) (x : DWord) :
    FpOutcome.IsRounded ⟨setFprf (setRounded f r.inc r.inexact) c, some x, r.inexact && fpXe f⟩ f
      ⟨x, 0 ||| fpWhen r.inexact fpXx, some r.inc, r.inexact, c, r.inexact && bitAt f 28⟩ := by
  have h := isRounded_of_status (f := f) (r := r) (x := x) (bits := 0) (c := c) (caused := r.inexact && fpXe f) (by decide)
    (by simp)
  rwa [show setRounded f r.inc r.inexact ||| 0 = setRounded f r.inc r.inexact from BitVec.or_zero] at h

theorem saturated_isRounded (u : Bool) (c : BitVec 5) (x : DWord) (ho : fpOe f = false) :
    FpOutcome.IsRounded ⟨setFprf (setFrFi f u true ||| fpOx ||| fpXx) c, some x, fpXe f⟩ f
      ⟨x, fpOx ||| fpXx, none, true, c, bitAt f 28⟩ := by
  have hb : BitsWithin fpArithBits (fpOx ||| fpXx) := by decide
  obtain ⟨-, hfi, hcl, hout⟩ := fpStatus_spec u true hb c (f := f)
  rw [BitVec.or_assoc]
  exact ⟨rfl, ⟨hb, hout, by simp [ho]⟩, (fun _ hb => nomatch hb), hfi, hcl, rfl⟩

end

/-- A number of units of `2^q` against a power of 2. -/
theorem zpow_le_units_iff {n : ℕ} (h : n ≠ 0) (q k : ℤ) : (2 : ℝ) ^ k ≤ n * (2 : ℝ) ^ q ↔ k ≤ n.log2 + q := by
  have hd : Magnitude.Describes ⟨n, q, false⟩ (n * (2 : ℝ) ^ q) := rfl
  obtain ⟨hlo, hhi⟩ := hd.exponent_bounds h
  constructor
  · intro hk
    exact Int.lt_add_one_iff.mp ((zpow_lt_zpow_iff_right₀ one_lt_two).mp (hk.trans_lt hhi))
  · intro hk
    exact (zpow_le_zpow_right₀ one_le_two hk).trans hlo

theorem log2_le_of_le_pow {n k : ℕ} (h : n ≤ 2 ^ k) : n.log2 ≤ k := by
  rcases eq_or_ne n 0 with rfl | h0
  · rw [Nat.log2_zero]
    exact Nat.zero_le k
  · exact (Nat.pow_le_pow_iff_right (by decide)).mp ((Nat.log2_self_le h0).trans h)

/-- A result rounded to the precision has as many bits, or is the next power of 2. -/
theorem RoundsIn.units_bounds {fmt : FpFormat} {f : Word} {y : ℝ} {sg : Bool} {e : ℤ} {r : Rounded}
    (h : RoundsIn fmt f y sg e r) (hp : 1 ≤ fmt.p) (hq : fmt.unit f e = e - (fmt.p - 1)) :
    r.units ≠ 0 ∧ r.units ≤ 2 ^ fmt.p ∧ fmt.p - 1 ≤ r.units.log2 ∧ r.units.log2 ≤ fmt.p := by
  have hr := h.rounds
  rw [hq] at hr
  have hlo : 2 ^ (fmt.p - 1) ≤ r.units := hr.le_units (by
    rw [Nat.cast_sub hp, Nat.cast_one, sub_add_cancel]; exact h.lower)
  have hhi : r.units ≤ 2 ^ fmt.p := hr.units_le (by
    rw [show e - ((fmt.p : ℤ) - 1) + fmt.p = e + 1 by ring]; exact h.upper)
  have h0 : r.units ≠ 0 := (Nat.lt_of_lt_of_le (by positivity) hlo).ne'
  exact ⟨h0, hhi, (Nat.le_log2 h0).mpr hlo, log2_le_of_le_pow hhi⟩

/-- A Tiny result that is denormalized has fewer units than the least normalized number. -/
theorem RoundsIn.denormal_units {fmt : FpFormat} {f : Word} {y : ℝ} {sg : Bool} {e : ℤ} {r : Rounded}
    (h : RoundsIn fmt f y sg e r) (hp : 1 ≤ fmt.p) (he : e < fmt.emin) (hu : bitAt f 26 = false) :
    r.units ≤ 2 ^ (fmt.p - 1) := by
  have hr := h.rounds
  rw [FpFormat.unit_denormal he hu] at hr
  refine hr.units_le (h.upper.trans_le (zpow_le_zpow_right₀ one_le_two ?_))
  omega

/-! ### The cases of `RoundResult` -/

section
variable {fmt : FpFormat} (hf : fmt.Standard) {f : Word} {y : ℝ} {sg : Bool} {e q : ℤ} {r : Rounded}
  (hr : RoundsIn fmt f y sg e r) (hq : fmt.unit f e = q)
include hf hr hq

/-- A result rounded to the precision and adjusted by `d` is in the range of double format. -/
theorem packD_rounded (hp : q = e - (fmt.p - 1)) (d : ℤ) (hlo : -1022 ≤ e + d) (hhi : r.units.log2 + q + d ≤ 1023) :
    HasMagnitude (packD sg r.units (q + d)) sg r.units (q + d) := by
  obtain ⟨-, hle, hl1, -⟩ := hr.units_bounds hf.p_pos (hq.trans hp)
  have hp1 := hf.p_pos
  exact packD_hasMagnitude sg (hle.trans (Nat.pow_le_pow_right (by decide) hf.p_le)) (.inr (by omega)) (by omega)

/-- A Tiny result with Underflow disabled. -/
theorem denormal_rounded (he : e < fmt.emin) (hu : bitAt f 26 = false) {p : FpOutcome}
    (hp : p.IsRounded f ⟨packD sg r.units q, fpWhen r.inexact fpUx ||| fpWhen r.inexact fpXx, some r.inc, r.inexact,
      fpClass fmt (packD sg r.units q), r.inexact && bitAt f 28⟩) : ∃ o, RoundedAs fmt y f o ∧ p.IsRounded f o := by
  have no : ¬ fmt.emin ≤ e := not_le.mpr he
  have hle := hr.denormal_units hf.p_pos he hu
  have hlog := log2_le_of_le_pow hle
  have hmag : HasMagnitude (packD sg r.units q) sg r.units q := by
    rw [FpFormat.unit_denormal he hu] at hq
    obtain ⟨-, p_pos, p_le, least, -, emin_le, emax_le, -⟩ := hf
    exact packD_hasMagnitude sg (hle.trans (Nat.pow_le_pow_right (by decide) (by omega))) (.inl (by omega)) (by omega)
  exact ⟨_, hr.roundedAs q hq (fun _ _ => ⟨⟨by rw [add_zero]; exact hmag, rfl, rfl, rfl, (if_pos rfl).symm⟩, rfl⟩)
    (fun _ hu' => by simp [hu] at hu') (absurd · no) (absurd · no) (absurd · no), hp⟩

/-- A Tiny result with Underflow enabled. -/
theorem underflow_rounded (he : e < fmt.emin) (hu : bitAt f 26 = true) (hlo : -1022 ≤ e + fmt.adj) :
    ∃ o, RoundedAs fmt y f o ∧ (roundAdjusted sg r q fmt.adj fpUx f).IsRounded f o := by
  have no : ¬ fmt.emin ≤ e := not_le.mpr he
  have hp := hq.symm.trans (FpFormat.unit_of_enabled hu)
  obtain ⟨-, -, -, hl⟩ := hr.units_bounds hf.p_pos (hq.trans hp)
  have hadj := hf.adj_emin
  have hmag := packD_rounded hf hr hq hp fmt.adj hlo (by omega)
  have hd := hf.adj_pos.ne'
  refine ⟨_, ?_, roundAdjusted_isRounded sg r q fmt.adj (by decide) (by simp [show fpUe f = true from hu])⟩
  exact hr.roundedAs q hq (fun _ hu' => by simp [hu] at hu')
    (fun _ _ => ⟨⟨hmag, rfl, rfl, rfl, (if_neg hd).symm⟩, rfl⟩) (absurd · no) (absurd · no) (absurd · no)

variable (he : fmt.emin ≤ e)
include he

/-- The test for Overflow is one of the rounded magnitude. -/
theorem overflow_iff : (2 : ℝ) ^ (fmt.emax + 1) ≤ r.units * (2 : ℝ) ^ q ↔ fmt.emax < r.units.log2 + q := by
  have hp := hq.symm.trans (FpFormat.unit_of_emin_le he)
  exact zpow_le_units_iff (hr.units_bounds hf.p_pos (hq.trans hp)).1 q (fmt.emax + 1)

/-- An Overflow with OE = 1. -/
theorem overflow_rounded (ho : bitAt f 25 = true) (hov : fmt.emax < r.units.log2 + q) (hhi : e - fmt.adj ≤ 1022) :
    ∃ o, RoundedAs fmt y f o ∧ (roundAdjusted sg r q (-fmt.adj) fpOx f).IsRounded f o := by
  have no : ¬ e < fmt.emin := not_lt.mpr he
  have hp := hq.symm.trans (FpFormat.unit_of_emin_le he)
  obtain ⟨-, -, -, hl⟩ := hr.units_bounds hf.p_pos (hq.trans hp)
  have hadj := hf.adj_emax
  have hover := (overflow_iff hf hr hq he).mpr hov
  have hmag := packD_rounded hf hr hq hp (-fmt.adj) (by omega) (by omega)
  have hd : -fmt.adj ≠ 0 := neg_ne_zero.mpr hf.adj_pos.ne'
  refine ⟨_, ?_, roundAdjusted_isRounded sg r q (-fmt.adj) (by decide) (by simp [show fpOe f = true from ho])⟩
  exact hr.roundedAs q hq (absurd · no) (absurd · no) (fun _ _ _ => ⟨⟨hmag, rfl, rfl, rfl, (if_neg hd).symm⟩, rfl⟩)
    (fun _ _ ho' => by simp [ho] at ho') (fun _ h => absurd hover (not_le.mpr h))

/-- An Overflow with OE = 0. -/
theorem saturated_rounded (ho : bitAt f 25 = false) (hov : fmt.emax < r.units.log2 + q) {p : FpOutcome}
    (hp : p.IsRounded f ⟨overflowDefault fmt sg (fld f 30 2), fpOx ||| fpXx, none, true,
      fpClass fmt (overflowDefault fmt sg (fld f 30 2)), bitAt f 28⟩) : ∃ o, RoundedAs fmt y f o ∧ p.IsRounded f o := by
  have no : ¬ e < fmt.emin := not_lt.mpr he
  have hover := (overflow_iff hf hr hq he).mpr hov
  exact ⟨_, hr.roundedAs q hq (absurd · no) (absurd · no) (fun _ _ ho' => by simp [ho] at ho')
    (fun _ _ _ => ⟨hf.overflow _ _, rfl, rfl, rfl, rfl, rfl⟩) (fun _ h => absurd hover (not_le.mpr h)), hp⟩

/-- A result within range. -/
theorem inRange_rounded (hov : r.units.log2 + q ≤ fmt.emax) {p : FpOutcome}
    (hp : p.IsRounded f ⟨packD sg r.units q, 0 ||| fpWhen r.inexact fpXx, some r.inc, r.inexact,
      fpClass fmt (packD sg r.units q), r.inexact && bitAt f 28⟩) : ∃ o, RoundedAs fmt y f o ∧ p.IsRounded f o := by
  have no : ¬ e < fmt.emin := not_lt.mpr he
  have hover : ¬ (2 : ℝ) ^ (fmt.emax + 1) ≤ r.units * (2 : ℝ) ^ q := by
    rw [overflow_iff hf hr hq he]
    exact not_lt.mpr hov
  have hmin := hf.emin_ge
  have hmax := hf.emax_le
  have hmag := packD_rounded hf hr hq (hq.symm.trans (FpFormat.unit_of_emin_le he)) 0 (by omega) (by omega)
  rw [add_zero] at hmag
  exact ⟨_, hr.roundedAs q hq (absurd · no) (absurd · no) (fun _ h => absurd h hover) (fun _ h => absurd h hover)
    (fun _ _ => ⟨⟨by rw [add_zero]; exact hmag, rfl, rfl, rfl, (if_pos rfl).symm⟩, rfl⟩), hp⟩

end

/-- What `roundResult` needs of a magnitude: nonzero, long enough if it is not exact, and within reach of the exponent
adjustment (47_fp_model.md R547, R550). -/
structure Magnitude.Roundable (v : Magnitude) (fmt : FpFormat) : Prop where
  nonzero : v.sig ≠ 0
  long    : v.sticky = true → 2 ^ 53 ≤ v.sig
  lower   : -1022 ≤ v.exponent + fmt.adj
  upper   : v.exponent - fmt.adj ≤ 1022

section
variable {fmt : FpFormat} (hf : fmt.Standard) {sg : Bool} {v : Magnitude} {y : ℝ} (hd : v.Describes |y|)
  (hv : v.Roundable fmt) (hs : sg = true ↔ y < 0) (f : Word)
include hf hd hv hs

/-- The rounding of what a magnitude describes. -/
theorem roundQ_roundsIn : RoundsIn fmt f y sg v.exponent (roundQ sg v (fmt.unit f v.exponent) (fld f 30 2)) := by
  obtain ⟨hlo, hhi⟩ := hd.exponent_bounds hv.nonzero
  refine ⟨hs, hlo, hhi, roundQ_roundsAt sg v _ _ _ hd fun hst => ?_⟩
  have hl : 53 ≤ v.sig.log2 := (Nat.le_log2 hv.nonzero).mpr (hv.long hst)
  have hp := hf.p_le
  unfold FpFormat.unit Magnitude.exponent
  split <;> omega

/-- `roundResult` rounds every nonzero number that its argument describes as R546 to R556 say. -/
theorem roundResult_rounded (u : Bool) : ∃ o, RoundedAs fmt y f o ∧ (roundResult fmt sg v f u).IsRounded f o := by
  have hr := roundQ_roundsIn hf hd hv hs f
  have last : fmt.unit f v.exponent = lastPlace fmt v →
      RoundsIn fmt f y sg v.exponent (roundQ sg v (lastPlace fmt v) (fpRn f)) := fun h => by rw [h] at hr; exact hr
  unfold roundResult
  extract_lets q r x x'
  rcases lt_or_ge v.exponent fmt.emin with he | he
  · rw [if_pos he]
    cases hu : bitAt f 26
    · rw [if_neg (by simp [fpUe, hu])]
      have hq := FpFormat.unit_denormal he hu
      rw [hq] at hr
      exact denormal_rounded hf hr hq he hu (roundTiny_isRounded v hu rfl rfl)
    · rw [if_pos (show fpUe f = true from hu)]
      have hq : fmt.unit f v.exponent = lastPlace fmt v := FpFormat.unit_of_enabled hu
      exact underflow_rounded hf (last hq) hq he hu hv.lower
  · rw [if_neg (not_lt.mpr he)]
    have hq : fmt.unit f v.exponent = lastPlace fmt v := FpFormat.unit_of_emin_le he
    rcases lt_or_ge fmt.emax ((r.units.log2 : ℤ) + q) with hov | hov
    · rw [if_pos hov]
      cases ho : bitAt f 25
      · rw [if_neg (by simp [fpOe, ho])]
        exact saturated_rounded hf (last hq) hq he ho hov (saturated_isRounded u _ _ ho)
      · rw [if_pos (show fpOe f = true from ho)]
        exact overflow_rounded hf (last hq) hq he ho hov hv.upper
    · rw [if_neg (not_lt.mpr hov)]
      exact inRange_rounded hf (last hq) hq he hov (rounded_isRounded r _ _)

end

end Sys2Proof.Machine
end

section
/-!
PROOFS, family 47_fp_model.md.  From the outcome of a computation to the state that the instruction leaves (47_fp_model.md R534, R541, R542, R554).
-/
namespace Sys2Proof.Machine

/-! ## What an outcome makes of the FPSCR (47_fp_model.md R534) -/

theorem bitAt_setsExceptionRest :
    ∀ i, i < 32 → bitAt (0xE0000000 : Word) i = decide (i < 3) ∧ bitAt (0x7F000 : Word) i = decide (13 ≤ i ∧ i ≤ 19) := by
  decide

section
variable {o : FpOutcome} {f m : Word} (h : o.Adds f m)
include h

theorem FpOutcome.Adds.bit {i : Nat} (hi : i < 32) (hn : i < 13 ∨ 20 ≤ i) : bitAt o.fpscr i = (bitAt f i || bitAt m i) := by
  rw [sameOutside_iff.mp h.bits i hi (by rw [bitAt_fpResultBits i hi]; exact decide_eq_false (by omega)), bitAt_or]

/-- An exception bit added is one of bits 3:12, 22 and 23. -/
theorem FpOutcome.Adds.mask_bit {i : Nat} (hi : i < 32) (hb : bitAt m i = true) : 3 ≤ i ∧ i ≤ 12 ∨ i = 22 ∨ i = 23 := by
  by_contra hn
  rw [h.mask.bit (by rw [bitAt_fpArithBits i hi]; exact decide_eq_false hn)] at hb
  cases hb

/-- FX after the bits `m` are added. -/
theorem FpOutcome.Adds.fx : bitAt (fpEndStatus f o.fpscr) 0 = (bitAt f 0 || (f &&& m != m)) := by
  have hm0 : bitAt m 0 = false := by
    by_contra hb
    have := h.mask_bit (by decide) (Bool.eq_true_of_not_eq_false hb)
    omega
  have changed : f &&& m ≠ m ↔ ∃ i, i < 32 ∧ bitAt m i = true ∧ bitAt f i = false := by
    constructor
    · intro hne
      by_contra hn
      push Not at hn
      refine hne (eq_of_bitAt_eq fun i hi => ?_)
      rw [bitAt_and]
      cases hb : bitAt m i
      · exact Bool.and_false _
      · rw [Bool.eq_true_of_not_eq_false (hn i hi hb), Bool.and_true]
    · rintro ⟨i, -, hmi, hfi⟩ he
      rw [← he, bitAt_and, hfi] at hmi
      cases hmi
  rw [Bool.eq_iff_iff, fpEndStatus_fx, h.bit (by decide) (by decide), hm0, Bool.or_false, Bool.or_eq_true, bne_iff_ne, changed]
  refine or_congr_right (exists_congr fun i => and_congr_right fun hi => ?_)
  constructor
  · rintro ⟨hr, hn, hf⟩
    rw [h.bit hi (by omega), hf, Bool.false_or] at hn
    exact ⟨hn, hf⟩
  · rintro ⟨hmi, hf⟩
    have hr := h.mask_bit hi hmi
    exact ⟨by omega, by rw [h.bit hi (by omega), hmi, Bool.or_true], hf⟩

/-- The exception bits of an outcome are set, with FX and the summaries. -/
theorem FpOutcome.Adds.setsException : SetsException f (fpEndStatus f o.fpscr) m := by
  refine ⟨eq_of_bitAt_eq fun i hi => ?_, fpEndStatus_summaries _ _, h.fx, sameOutside_iff.mpr fun i hi hb => ?_⟩
  · rw [bitAt_and]
    cases hb : bitAt m i
    · exact Bool.and_false _
    · have hr := h.mask_bit hi hb
      rw [fpEndStatus_bit _ _ (by omega) hi, h.bit hi (by omega), hb, Bool.or_true]
      rfl
  · obtain ⟨h1, h2⟩ := bitAt_setsExceptionRest i hi
    rw [bitAt_or, bitAt_or, h1, h2, Bool.or_eq_false_iff, Bool.or_eq_false_iff, decide_eq_false_iff_not,
      decide_eq_false_iff_not] at hb
    obtain ⟨⟨hm, h3⟩, h13⟩ := hb
    rw [fpEndStatus_bit _ _ (by omega) hi, h.bit hi (by omega), hm, Bool.or_false]

end

/-- A bit outside FX, the summaries, FR, FI and FPRF after the bits `m` are set. -/
theorem SetsException.bit {f g m : Word} (h : SetsException f g m) {i : Nat} (hi : i < 32) (h3 : 3 ≤ i)
    (hr : i < 13 ∨ 20 ≤ i) : bitAt g i = (bitAt f i || bitAt m i) := by
  obtain ⟨hset, -, -, hout⟩ := h
  obtain ⟨h1, h2⟩ := bitAt_setsExceptionRest i hi
  cases hm : bitAt m i
  · rw [Bool.or_false]
    refine sameOutside_iff.mp hout i hi ?_
    rw [bitAt_or, bitAt_or, h1, h2, hm, decide_eq_false (by omega), decide_eq_false (by omega)]
    rfl
  · rw [← hset, bitAt_and, Bool.and_eq_true] at hm
    rw [hm.1, Bool.or_true]

/-- An instruction that sets no exception bit changes FR, FI and FPRF at most, where the summaries held before it. -/
theorem SetsException.sameOutside {f g : Word} (h : SetsException f g 0) (hf : FpscrSummaries f) :
    SameOutside 0x7F000 f g := by
  have rest : ∀ i, i < 32 → 3 ≤ i → i < 13 ∨ 20 ≤ i → bitAt g i = bitAt f i := fun i hi h3 hr => by
    rw [h.bit hi h3 hr, bitAt_zero, Bool.or_false]
  obtain ⟨-, hg, hfx, -⟩ := h
  have vx : fpscrVx g = fpscrVx f := fpscrVx_congr fun i h1 h2 h3 => rest i (by omega) (by omega) (by omega)
  have fex : fpscrFex g = fpscrFex f := fpscrFex_congr fun i h1 h2 h3 => rest i (by omega) (by omega) (by omega)
  refine sameOutside_iff.mpr fun i hi hb => ?_
  rw [(bitAt_setsExceptionRest i hi).2, decide_eq_false_iff_not] at hb
  rcases Nat.lt_or_ge i 3 with h3 | h3
  · have : i = 0 ∨ i = 1 ∨ i = 2 := by omega
    rcases this with rfl | rfl | rfl
    · simpa using hfx
    · rw [bitAt_fex_of_summaries hg, bitAt_fex_of_summaries hf, fex]
    · rw [hg.1, hf.1, ← fpscrVx_bits, ← fpscrVx_bits, vx]
  · exact rest i hi h3 (by omega)

theorem fpEndStatus_fprf (old new : Word) : fld (fpEndStatus old new) 15 5 = fld new 15 5 :=
  fld_eq_of_bits (by decide) fun _ _ _ => fpEndStatus_bit old new (by omega) (by omega)

/-! ## How a computational instruction ends -/

/-- `t` is what `s` becomes when a computational instruction with target `frt` ends with the outcome `o`. -/
structure State.Ends (s t : State) (frt : RegNum) (single rc : Bool) (o : FpOutcome) : Prop where
  value  : t.fprOf frt = o.frt.getD (s.fprOf frt)
  single : t.singleOf frt = if o.frt.isSome then single else s.singleOf frt
  fpscr  : t.fpscr = fpEndStatus s.fpscr o.fpscr
  frame  : s.FloatingPoint t frt rc (s.enabledEvent o.caused)

/-- The instruction goes on, and ends with the outcome `o`. -/
def EndsWith (res : Res) (s : State) (frt : RegNum) (single rc : Bool) (o : FpOutcome) : Prop :=
  ∃ t, res = .next t ∧ s.Ends t frt single rc o

theorem fpApply_singleOf (frt : RegNum) (single rc : Bool) (o : FpOutcome) (s : State) :
    (fpApply frt single rc o s).singleOf frt = if o.frt.isSome then single else s.singleOf frt := by
  unfold fpApply State.setFprIf
  rw [State.record1_frame]
  cases o.frt with
  | none => rfl
  | some x => exact s.singleOf_setFpr_same frt x single

theorem fpApply_recorded1 (frt : RegNum) (single rc : Bool) (o : FpOutcome) (s : State) :
    s.Recorded1 (fpApply frt single rc o s) rc := by
  have h := ((s.setFprIf frt o.frt single).setFpscr (fpEndStatus s.fpscr o.fpscr)).recorded1_record1 rc
  have hcr : ((s.setFprIf frt o.frt single).setFpscr (fpEndStatus s.fpscr o.fpscr)).cr = s.cr := by
    rw [State.setFprIf_frame]; rfl
  unfold State.Recorded1 State.OtherCrFields State.crField at h ⊢
  rwa [hcr] at h

theorem fpRun_endsWith (frt : RegNum) (single rc : Bool) (o : Word → DWord → FpOutcome) (s : State) :
    EndsWith (fpRun frt single rc o s) s frt single rc (o s.fpscr (s.draw 64)) := by
  set p := o s.fpscr (s.draw 64) with hp
  have hf := fpApply_frame frt single rc p s.drawn
  refine ⟨_, fpComplete_eq p.caused (fpApply frt single rc p s.drawn), ?_, fpApply_singleOf frt single rc p s.drawn, ?_, ?_, ?_,
    ?_, ?_, ?_, ?_⟩
  · exact (fpApply_fprOf frt frt single rc p s.drawn).trans (if_pos rfl)
  · rw [hf]; rfl
  · intro q hq
    have h := s.drawn.setFprIf_otherFprs frt p.frt single q hq
    unfold fpApply
    rw [State.record1_frame]
    exact h
  · exact fpApply_recorded1 frt single rc p s.drawn
  · exact State.byteAt_congr (by rw [hf]; rfl) (by rw [hf]; rfl)
  · rw [hf]; rfl
  · rw [hf]; rfl
  · rw [hf]; rfl

section
variable {s : State} (hs : s.Ieee) (frt : RegNum) (rc : Bool) (o : Word → DWord → FpOutcome)
include hs

theorem fpDouble_endsWith : EndsWith (fpDouble frt rc o s) s frt false rc (o s.fpscr (s.draw 64)) := by
  rw [fpDouble, fpGuard_of_ieee _ hs]
  exact fpRun_endsWith frt false rc o s

theorem fpSingle_endsWith {xs : List DWord} (hx : xs.all repSingle = true) (mask : Word) :
    EndsWith (fpSingle frt rc xs mask o s) s frt true rc (o s.fpscr (s.draw 64)) := by
  rw [fpSingle, fpGuard_of_ieee _ hs, if_pos hx]
  exact fpRun_endsWith frt true rc o s

end

/-! ## From an outcome to what an instruction delivers -/

theorem State.enabledEvent_false (s : State) : s.enabledEvent false = s.event := rfl

section
variable {res : Res} {s : State} {frt : RegNum} {rc : Bool} {fmt : FpFormat}

/-- What the FPSCR is at the end, where the outcome wrote it as `fpStatus` does. -/
theorem State.Ends.status {t : State} {single : Bool} {p : FpOutcome} (h : s.Ends t frt single rc p) :
    bitAt t.fpscr 13 = bitAt p.fpscr 13 ∧ bitAt t.fpscr 14 = bitAt p.fpscr 14 ∧ fld t.fpscr 15 5 = fld p.fpscr 15 5 := by
  rw [h.fpscr, fpEndStatus_bit _ _ (by decide) (by decide), fpEndStatus_bit _ _ (by decide) (by decide), fpEndStatus_fprf]
  exact ⟨rfl, rfl, rfl⟩

theorem setFrFi_zero_or (f : Word) (fr fi : Bool) (c : BitVec 5) : setFprf (setFrFi f fr fi) c = fpStatus f 0 fr fi c := by
  rw [fpStatus, show setFrFi f fr fi ||| 0 = setFrFi f fr fi from BitVec.or_zero]

/-- An exact outcome is delivered exactly. -/
theorem EndsWith.exact {x : DWord} (h : EndsWith res s frt (fmt.p == 24) rc (fpExact fmt x s.fpscr))
    (hf : FpscrSummaries s.fpscr) : DeliversExactly fmt res s frt rc x := by
  obtain ⟨t, ht, he⟩ := h
  obtain ⟨h13, h14, hcl, -⟩ := fpStatus_spec false false (m := 0) (f := s.fpscr) (by decide) (fpClass fmt x)
  obtain ⟨e13, e14, ecl⟩ := he.status
  rw [fpExact, setFrFi_zero_or] at e13 e14 ecl
  refine ⟨t, ht, he.value, he.single, e13.trans h13, e14.trans h14, ecl.trans hcl, ?_, he.frame⟩
  rw [he.fpscr]
  exact (fpExact_adds fmt x s.fpscr).setsException.sameOutside hf

/-- What an Invalid Operation Exception or an enabled Zero Divide leaves of the FPSCR. -/
theorem fpInvalid_status {vx : Word} (hm : BitsWithin fpArithBits vx) (f : Word) :
    bitAt (setFrFi (f ||| vx) false false) 13 = false ∧ bitAt (setFrFi (f ||| vx) false false) 14 = false ∧
      fld (setFrFi (f ||| vx) false false) 15 5 = fld f 15 5 := by
  rw [setFrFi_or _ _ hm]
  refine ⟨(bitAt_setFrFi_or false false hm).1, (bitAt_setFrFi_or false false hm).2, fld_eq_of_bits (by decide) fun i h1 h2 => ?_⟩
  rw [bitAt_or, fpArith_frfi hm (by omega) (by omega), Bool.or_false, bitAt_setFrFi _ _ _ (by omega), if_neg (by omega),
    if_neg (by omega)]

/-- An outcome that delivers nothing, FR and FI being cleared: an enabled Invalid Operation or Zero Divide. -/
theorem State.Ends.kept {t : State} {single : Bool} {m : Word} (hm : BitsWithin fpArithBits m)
    (h : s.Ends t frt single rc ⟨setFrFi (s.fpscr ||| m) false false, none, true⟩) :
    bitAt t.fpscr 13 = false ∧ bitAt t.fpscr 14 = false ∧
      (t.fprOf frt = s.fprOf frt ∧ t.singleOf frt = s.singleOf frt ∧ fld t.fpscr 15 5 = fld s.fpscr 15 5) := by
  obtain ⟨h13, h14, hcl⟩ := fpInvalid_status hm s.fpscr
  obtain ⟨e13, e14, ecl⟩ := h.status
  exact ⟨e13.trans h13, e14.trans h14, h.value, h.single, ecl.trans hcl⟩

/-- An outcome that delivers `x` with exception bits, FR and FI being cleared: a disabled Invalid Operation or Zero Divide. -/
theorem State.Ends.delivered {t : State} {single : Bool} {m : Word} {c : BitVec 5} {x : DWord}
    (hm : BitsWithin fpArithBits m)
    (h : s.Ends t frt single rc ⟨setFprf (setFrFi (s.fpscr ||| m) false false) c, some x, false⟩) :
    bitAt t.fpscr 13 = false ∧ bitAt t.fpscr 14 = false ∧
      (t.fprOf frt = x ∧ t.singleOf frt = single ∧ fld t.fpscr 15 5 = c) := by
  obtain ⟨h13, h14, hcl, -⟩ := fpStatus_spec false false hm c (f := s.fpscr)
  obtain ⟨e13, e14, ecl⟩ := h.status
  rw [setFrFi_or _ _ hm] at e13 e14 ecl
  exact ⟨e13.trans h13, e14.trans h14, h.value, h.single, ecl.trans hcl⟩

theorem EndsWith.invalid {vx : Word} {nan : DWord} (h : EndsWith res s frt (fmt.p == 24) rc (fpInvalid vx nan s.fpscr))
    (hm : BitsWithin fpInvalidBits vx) (hn : vx ≠ 0) : InvalidOperation fmt res s frt rc vx nan := by
  obtain ⟨t, ht, he⟩ := h
  have hset : SetsException s.fpscr t.fpscr vx := by rw [he.fpscr]; exact (fpInvalid_adds hm hn nan s.fpscr).setsException
  have hframe := he.frame
  unfold fpInvalid at he hframe
  cases hv : bitAt s.fpscr 24
  · rw [if_neg (by simp [fpVe, hv])] at he hframe
    obtain ⟨h13, h14, hdel⟩ := he.delivered hm.arith
    exact ⟨t, ht, hset, h13, h14, fun _ => hdel, (by simp [hv] at ·), by rw [hv]; exact hframe⟩
  · rw [if_pos (show fpVe s.fpscr = true from hv)] at he hframe
    obtain ⟨h13, h14, hkept⟩ := he.kept hm.arith
    exact ⟨t, ht, hset, h13, h14, (by simp [hv] at ·), fun _ => hkept, by rw [hv]; exact hframe⟩

/-- Negating an outcome changes what FRT takes, and FPRF (48_fp_instructions.md R631). -/
theorem FpOutcome.IsRounded.negatedIf {p : FpOutcome} {f : Word} {o : RoundedOutcome} (h : p.IsRounded f o) (neg : Bool) :
    let p' := if neg then p.negated else p
    p'.frt = some (if neg then fpNegated o.value else o.value) ∧ p'.Adds f o.bits ∧
      bitAt p'.fpscr 13 = bitAt p.fpscr 13 ∧ bitAt p'.fpscr 14 = o.fi ∧
      fld p'.fpscr 15 5 = (if neg then negClass o.fprf else o.fprf) ∧ p'.caused = o.caused := by
  cases neg
  · exact ⟨h.value, h.adds, rfl, h.fi, h.fprf, h.caused⟩
  · refine ⟨congrArg (Option.map fpNegated) h.value, h.adds.negated, bitAt_setFprf _ _ (by decide) (by decide),
      (bitAt_setFprf _ _ (by decide) (by decide)).trans h.fi, ?_, h.caused⟩
    rw [← h.fprf]
    exact fld_setFprf _ _

/-- A rounded outcome is delivered rounded; negated, where `neg`. -/
theorem EndsWith.rounded {p : FpOutcome} {o : RoundedOutcome} {y : ℝ} {neg : Bool}
    (h : EndsWith res s frt (fmt.p == 24) rc (if neg then p.negated else p)) (ho : RoundedAs fmt y s.fpscr o)
    (hp : p.IsRounded s.fpscr o) : DeliversRounded fmt neg res s frt rc y := by
  obtain ⟨t, ht, he⟩ := h
  obtain ⟨hval, hadds, h13, h14, hcl, hcaused⟩ := hp.negatedIf neg
  obtain ⟨e13, e14, ecl⟩ := he.status
  refine ⟨t, o, ht, ho, ?_, ?_, ?_, fun b hb => e13.trans (h13.trans (hp.fr b hb)), e14.trans h14, ecl.trans hcl, ?_⟩
  · rw [he.value, hval]; rfl
  · rw [he.single, hval]; rfl
  · rw [he.fpscr]; exact hadds.setsException
  · rw [← hcaused]; exact he.frame

end

end Sys2Proof.Machine
end

section
/-!
PROOFS, family 47_fp_model.md.  The arithmetic instructions and the skeleton they share (47_fp_model.md R555).
-/
namespace Sys2Proof.Machine

/-! ## Classes -/

theorem isNaN_of_isInf {x : DWord} (h : isInf x = true) : isNaN x = false := by
  simp only [isInf, isNaN, Bool.and_eq_true, beq_iff_eq] at h ⊢
  simp [h.2]

theorem finite_of_isZero {x : DWord} (h : isZero x = true) : isNaN x = false ∧ isInf x = false := by
  rw [finite_iff]
  simp only [isZero, Bool.and_eq_true, beq_iff_eq] at h
  omega

theorem isZero_of_isInf {x : DWord} (h : isInf x = true) : isZero x = false := by
  rw [← Bool.not_eq_true]
  intro hz
  rw [(finite_of_isZero hz).2] at h
  cases h

theorem isSNaN_of_not_isNaN {x : DWord} (h : isNaN x = false) : isSNaN x = false := by rw [isSNaN, h, Bool.false_and]

theorem isNumber_iff (x : DWord) : isNumber x = true ↔ (isNaN x = false ∧ isInf x = false) ∧ isZero x = false := by
  rw [isNumber, finite_iff, Bool.and_eq_true, bne_iff_ne, Bool.not_eq_true']

/-- An infinity is the one of its sign. -/
theorem eq_fpInf {x : DWord} (h : isInf x = true) : x = fpInf (fpSign x) := by
  simp only [isInf, Bool.and_eq_true, beq_iff_eq] at h
  exact eq_of_fields (by simp) (by simp [h]) (by simp [h])

/-- A zero is the one of its sign. -/
theorem eq_fpZero {x : DWord} (h : isZero x = true) : x = fpZero (fpSign x) := by
  simp only [isZero, Bool.and_eq_true, beq_iff_eq] at h
  exact eq_of_fields (by simp) (by simp [h]) (by simp [h])

theorem fpNegated_fpInf (s : Bool) : fpNegated (fpInf s) = fpInf (!s) := by cases s <;> decide
theorem fpNegated_fpZero (s : Bool) : fpNegated (fpZero s) = fpZero (!s) := by cases s <;> decide

/-- The class of a negated pattern that is no NaN (48_fp_instructions.md R631). -/
theorem fpClass_fpNegated (fmt : FpFormat) {x : DWord} (h : isNaN x = false) :
    fpClass fmt (fpNegated x) = negClass (fpClass fmt x) := by
  simp only [fpClass, isNaN_fpNegated, isInf_fpNegated, isZero_fpNegated, fpSign_fpNegated, fpExp_fpNegated, h,
    Bool.false_eq_true, if_false]
  generalize isInf x = inf
  generalize isZero x = zero
  generalize fpSign x = sign
  by_cases he : fpExp x < fmt.minExp
  · simp only [if_pos he]
    revert inf zero sign
    decide
  · simp only [if_neg he]
    revert inf zero sign
    decide

/-! ## The arithmetic instructions (47_fp_model.md R555) -/

/-- The outcome of an arithmetic instruction: the common skeleton, a numeric result negated if `neg`. -/
def fpOutcome (fmt : FpFormat) (neg : Bool) (vx : Word) (xs : List DWord) (result : ExactResult) (f : Word) (u : Bool) :
    FpOutcome :=
  if neg && vx == 0 && !xs.any isNaN then (fpCompute fmt vx xs result f u).negated else fpCompute fmt vx xs result f u

section
variable (fmt : FpFormat) (neg : Bool) {vx : Word} {xs : List DWord} (result : ExactResult) (f : Word) (u : Bool)

theorem fpOutcome_invalid (h : vx ≠ 0) : fpOutcome fmt neg vx xs result f u = fpInvalid vx (nanResult xs) f := by
  have hv : (vx == 0) = false := beq_eq_false_iff_ne.mpr h
  rw [fpOutcome, hv, Bool.and_false, Bool.false_and, if_neg (by decide)]
  exact if_pos h

theorem fpOutcome_nan (hn : xs.any isNaN = true) : fpOutcome fmt neg 0 xs result f u = fpExact fmt (nanResult xs) f := by
  rw [fpOutcome, hn, Bool.not_true, Bool.and_false, if_neg (by decide)]
  exact (if_neg (by decide)).trans (if_pos hn)

/-- Where no operand is a NaN and the operation is not invalid, its own result decides. -/
theorem fpOutcome_numeric (hn : xs.any isNaN = false) : fpOutcome fmt neg 0 xs result f u =
    if neg then (fpCompute fmt 0 xs result f u).negated else fpCompute fmt 0 xs result f u := by
  rw [fpOutcome, hn]
  simp

theorem fpCompute_exact (hn : xs.any isNaN = false) (x : DWord) : fpCompute fmt 0 xs (.exact x) f u = fpExact fmt x f := 
  (if_neg (by decide)).trans (if_neg (by rw [hn]; decide))

theorem fpCompute_zeroDivide (hn : xs.any isNaN = false) (s : Bool) :
    fpCompute fmt 0 xs (.zeroDivide s) f u = fpZeroDivide fmt s f := 
  (if_neg (by decide)).trans (if_neg (by rw [hn]; decide))

theorem fpCompute_finite (hn : xs.any isNaN = false) (s : Bool) (v : Magnitude) :
    fpCompute fmt 0 xs (.finite s v) f u = roundResult fmt s v f u := 
  (if_neg (by decide)).trans (if_neg (by rw [hn]; decide))

/-- Negating an exact outcome. -/
theorem fpExact_negated {x : DWord} (h : isNaN x = false) : (fpExact fmt x f).negated = fpExact fmt (fpNegated x) f := by
  have hf : setFprf (setFprf (setFrFi f false false) (fpClass fmt x)) (negClass (fpClass fmt x)) =
      setFprf (setFrFi f false false) (negClass (fpClass fmt x)) := by
    apply eq_of_bitAt_eq
    intro i hi
    rw [setFprf, setFprf, setFprf, bitAt_setFld _ _ hi (by decide), bitAt_setFld _ _ hi (by decide),
      bitAt_setFld _ _ hi (by decide)]
    split <;> rfl
  rw [fpExact, fpExact, FpOutcome.negated, fld_setFprf, hf, fpClass_fpNegated fmt h]
  rfl

end

/-- The two instructions of an operation, in double and in single precision: the double-precision one ends with the operation's
outcome, the single-precision one so where single format represents the operands. -/
structure Arithmetic (dp sp : Res) (s : State) (frt : RegNum) (rc neg : Bool) (vx : Word) (xs : List DWord)
    (result : ExactResult) : Prop where
  double : EndsWith dp s frt false rc (fpOutcome .dp neg vx xs result s.fpscr (drawnBit (s.draw 64)))
  single : xs.all repSingle = true →
    EndsWith sp s frt true rc (fpOutcome .sp neg vx xs result s.fpscr (drawnBit (s.draw 64)))

/-- The Invalid Operation bits of a sum whose second operand participates as `y`. -/
def vxSum (a b y : DWord) : Word :=
  vxsnanOf [a, b] ||| fpWhen (isInf a && isInf y && fpSign a != fpSign y) fpVxisi

/-- The Invalid Operation bits of a product. -/
def vxProduct (a c : DWord) : Word := vxsnanOf [a, c] ||| fpWhen (isInfTimesZero a c) fpVximz

/-- The Invalid Operation bits of a quotient. -/
def vxQuotient (a b : DWord) : Word :=
  vxsnanOf [a, b] ||| fpWhen (isInf a && isInf b) fpVxidi ||| fpWhen (isZero a && isZero b) fpVxzdz

/-- The Invalid Operation bits of a multiply-add whose addend participates as `y`. -/
def vxFused (a b c y : DWord) : Word :=
  vxsnanOf [a, b, c] ||| fpWhen (isInfTimesZero a c) fpVximz |||
    fpWhen (isInfProduct a c && isInf b && fpSign y != (fpSign a != fpSign c)) fpVxisi

/-- The Invalid Operation bits of a square root. -/
def vxRoot (b : DWord) : Word := vxsnanOf [b] ||| fpWhen (isNegative b) fpVxsqrt

/-- The addend of a multiply-add as it participates. -/
def fpAddend (sub : Bool) (b : DWord) : DWord := if sub then fpNegated b else b

/-- What `fpSqrt` rounds or delivers. -/
def fpRooted (b : DWord) : ExactResult := if isZero b || isInf b then .exact b else .finite false (fpRoot b)

section
variable {s : State} (hs : s.Ieee) (frt fra frb frc : RegNum) (rc : Bool)
include hs

theorem fadd_arithmetic : Arithmetic (exec (.fadd frt fra frb rc) s) (exec (.fadds frt fra frb rc) s) s frt rc false
    (vxSum (s.fprOf fra) (s.fprOf frb) (s.fprOf frb)) [s.fprOf fra, s.fprOf frb]
    (fpSum (s.fprOf fra) (s.fprOf frb) s.fpscr) :=
  ⟨fpDouble_endsWith hs frt rc _, fun h => fpSingle_endsWith hs frt rc _ h _⟩

theorem fsub_arithmetic : Arithmetic (exec (.fsub frt fra frb rc) s) (exec (.fsubs frt fra frb rc) s) s frt rc false
    (vxSum (s.fprOf fra) (s.fprOf frb) (fpNegated (s.fprOf frb))) [s.fprOf fra, s.fprOf frb]
    (fpSum (s.fprOf fra) (fpNegated (s.fprOf frb)) s.fpscr) :=
  ⟨fpDouble_endsWith hs frt rc _, fun h => fpSingle_endsWith hs frt rc _ h _⟩

theorem fmul_arithmetic : Arithmetic (exec (.fmul frt fra frc rc) s) (exec (.fmuls frt fra frc rc) s) s frt rc false
    (vxProduct (s.fprOf fra) (s.fprOf frc)) [s.fprOf fra, s.fprOf frc] (fpProduct (s.fprOf fra) (s.fprOf frc)) :=
  ⟨fpDouble_endsWith hs frt rc _, fun h => fpSingle_endsWith hs frt rc _ h _⟩

theorem fdiv_arithmetic : Arithmetic (exec (.fdiv frt fra frb rc) s) (exec (.fdivs frt fra frb rc) s) s frt rc false
    (vxQuotient (s.fprOf fra) (s.fprOf frb)) [s.fprOf fra, s.fprOf frb] (fpRatio (s.fprOf fra) (s.fprOf frb)) :=
  ⟨fpDouble_endsWith hs frt rc _, fun h => fpSingle_endsWith hs frt rc _ h _⟩

theorem fmadd_arithmetic : Arithmetic (exec (.fmadd frt fra frb frc rc) s) (exec (.fmadds frt fra frb frc rc) s) s frt rc false
    (vxFused (s.fprOf fra) (s.fprOf frb) (s.fprOf frc) (fpAddend false (s.fprOf frb)))
    [s.fprOf fra, s.fprOf frb, s.fprOf frc]
    (fpFused (s.fprOf fra) (s.fprOf frc) (fpAddend false (s.fprOf frb)) s.fpscr) :=
  ⟨fpDouble_endsWith hs frt rc _, fun h => fpSingle_endsWith hs frt rc _ h _⟩

theorem fmsub_arithmetic : Arithmetic (exec (.fmsub frt fra frb frc rc) s) (exec (.fmsubs frt fra frb frc rc) s) s frt rc false
    (vxFused (s.fprOf fra) (s.fprOf frb) (s.fprOf frc) (fpAddend true (s.fprOf frb)))
    [s.fprOf fra, s.fprOf frb, s.fprOf frc]
    (fpFused (s.fprOf fra) (s.fprOf frc) (fpAddend true (s.fprOf frb)) s.fpscr) :=
  ⟨fpDouble_endsWith hs frt rc _, fun h => fpSingle_endsWith hs frt rc _ h _⟩

theorem fnmadd_arithmetic : Arithmetic (exec (.fnmadd frt fra frb frc rc) s) (exec (.fnmadds frt fra frb frc rc) s) s frt rc
    true (vxFused (s.fprOf fra) (s.fprOf frb) (s.fprOf frc) (fpAddend false (s.fprOf frb)))
    [s.fprOf fra, s.fprOf frb, s.fprOf frc]
    (fpFused (s.fprOf fra) (s.fprOf frc) (fpAddend false (s.fprOf frb)) s.fpscr) :=
  ⟨fpDouble_endsWith hs frt rc _, fun h => fpSingle_endsWith hs frt rc _ h _⟩

theorem fnmsub_arithmetic : Arithmetic (exec (.fnmsub frt fra frb frc rc) s) (exec (.fnmsubs frt fra frb frc rc) s) s frt rc
    true (vxFused (s.fprOf fra) (s.fprOf frb) (s.fprOf frc) (fpAddend true (s.fprOf frb)))
    [s.fprOf fra, s.fprOf frb, s.fprOf frc]
    (fpFused (s.fprOf fra) (s.fprOf frc) (fpAddend true (s.fprOf frb)) s.fpscr) :=
  ⟨fpDouble_endsWith hs frt rc _, fun h => fpSingle_endsWith hs frt rc _ h _⟩

theorem fsqrt_arithmetic (hg : s.env.hasFpGeneral = true) : Arithmetic (exec (.fsqrt frt frb rc) s) (exec (.fsqrts frt frb rc) s)
    s frt rc false (vxRoot (s.fprOf frb)) [s.fprOf frb] (fpRooted (s.fprOf frb)) := by
  refine ⟨?_, fun h => ?_⟩
  · rw [show exec (.fsqrt frt frb rc) s = _ from ite_not_provided hg _ _]
    exact fpDouble_endsWith hs frt rc _
  · rw [show exec (.fsqrts frt frb rc) s = _ from ite_not_provided hg _ _]
    exact fpSingle_endsWith hs frt rc _ h _

end

/-! ### What follows for both instructions at once -/

section
variable {dp sp : Res} {s : State} {frt : RegNum} {rc neg : Bool} {vx : Word} {xs : List DWord} {result : ExactResult}

/-- What holds of every instruction that ends with the outcome, in the precision of each, holds of the two. -/
theorem Arithmetic.both (h : Arithmetic dp sp s frt rc neg vx xs result) (P : FpFormat → Res → Prop)
    (hp : ∀ fmt res, fmt.Standard → (fmt.p = 24 → xs.all repSingle = true) →
      EndsWith res s frt (fmt.p == 24) rc (fpOutcome fmt neg vx xs result s.fpscr (drawnBit (s.draw 64))) → P fmt res) :
    P .dp dp ∧ (xs.all repSingle = true → P .sp sp) :=
  ⟨hp _ _ FpFormat.dp_standard (fun h => absurd h (by decide)) h.double,
    fun hx => hp _ _ FpFormat.sp_standard (fun _ => hx) (h.single hx)⟩

theorem Arithmetic.invalid (h : Arithmetic dp sp s frt rc neg vx xs result) (hm : BitsWithin fpInvalidBits vx) (hn : vx ≠ 0) :
    InvalidOperation .dp dp s frt rc vx (nanResult xs) ∧
      (xs.all repSingle = true → InvalidOperation .sp sp s frt rc vx (nanResult xs)) :=
  h.both (fun fmt res => InvalidOperation fmt res s frt rc vx (nanResult xs)) fun fmt res _ _ he => by
    rw [fpOutcome_invalid _ _ _ _ _ hn] at he
    exact he.invalid hm hn

theorem Arithmetic.exact (h : Arithmetic dp sp s frt rc neg vx xs result) (hf : FpscrSummaries s.fpscr) (hvx : vx = 0)
    (hn : xs.any isNaN = false) {x : DWord} (hr : result = .exact x) (hx : isNaN x = false) :
    DeliversExactly .dp dp s frt rc (fpAddend neg x) ∧
      (xs.all repSingle = true → DeliversExactly .sp sp s frt rc (fpAddend neg x)) :=
  h.both (fun fmt res => DeliversExactly fmt res s frt rc (fpAddend neg x)) fun fmt res _ _ he => by
    subst hvx hr
    rw [fpOutcome_numeric _ _ _ _ _ hn, fpCompute_exact _ _ _ hn, fpExact_negated _ _ hx] at he
    refine EndsWith.exact ?_ hf
    cases neg
    · exact he
    · exact he

/-- A result to be rounded: described over the real numbers, within reach in each precision that takes the operands. -/
theorem Arithmetic.rounded (h : Arithmetic dp sp s frt rc neg vx xs result) (hvx : vx = 0) (hn : xs.any isNaN = false)
    {sg : Bool} {m : Magnitude} {y : ℝ} (hr : result = .finite sg m) (hd : m.Describes |y|) (hsg : sg = true ↔ y < 0)
    (hv : ∀ fmt : FpFormat, fmt.Standard → (fmt.p = 24 → xs.all repSingle = true) → m.Roundable fmt) :
    DeliversRounded .dp neg dp s frt rc y ∧ (xs.all repSingle = true → DeliversRounded .sp neg sp s frt rc y) :=
  h.both (fun fmt res => DeliversRounded fmt neg res s frt rc y) fun fmt res hfmt hrep he => by
    subst hvx hr
    rw [fpOutcome_numeric _ _ _ _ _ hn, fpCompute_finite _ _ _ hn] at he
    obtain ⟨o, ho, hp⟩ := roundResult_rounded hfmt hd (hv fmt hfmt hrep) hsg s.fpscr (drawnBit (s.draw 64))
    exact he.rounded ho hp

end

end Sys2Proof.Machine
end

section
/-!
PROOFS, family 47_fp_model.md.  Invalid Operation (O53), and the delivery of NaNs.
-/
namespace Sys2Proof.Machine

/-! ## Invalid Operation, NaNs, Zero Divide -/

theorem nanResult_eq (xs : List DWord) : nanResult xs = ((xs.find? isNaN).map quiet).getD 0x7FF8000000000000 := by
  induction xs with
  | nil => rfl
  | cons x rest ih =>
    rw [nanResult, List.find?_cons]
    cases isNaN x
    · exact ih
    · rfl

theorem fpSign_fpAddend (sub : Bool) (b : DWord) : fpSign (fpAddend sub b) = (fpSign b != sub) := by
  cases sub
  · exact (Bool.bne_false _).symm
  · exact (fpSign_fpNegated b).trans (Bool.bne_true _).symm

/-- Every Invalid Operation bit that an operation may set is one. -/
theorem vx_within (a b c y : DWord) : BitsWithin fpInvalidBits (vxSum a b y) ∧ BitsWithin fpInvalidBits (vxProduct a c) ∧
    BitsWithin fpInvalidBits (vxQuotient a b) ∧ BitsWithin fpInvalidBits (vxFused a b c y) ∧
    BitsWithin fpInvalidBits (vxRoot b) :=
  ⟨(vxsnanOf_within _).or (.when (by decide) _), (vxsnanOf_within _).or (.when (by decide) _),
    ((vxsnanOf_within _).or (.when (by decide) _)).or (.when (by decide) _),
    ((vxsnanOf_within _).or (.when (by decide) _)).or (.when (by decide) _), (vxsnanOf_within _).or (.when (by decide) _)⟩

/-- Settles O53: the Invalid Operation bits of each instruction are those of the statement, and the skeleton does the rest. -/
theorem invalidOperationResults : Obligations.InvalidOperationResults := by
  intro s frt fra frb frc rc hs a b c bit invalid infinities times sign product fused
  have of : ∀ {dp sp xs neg vx result others}, Arithmetic dp sp s frt rc neg vx xs result → BitsWithin fpInvalidBits vx →
      vx = bit (xs.any isSNaN) 7 ||| others → invalid dp sp xs others := by
    rintro dp sp xs neg _ result others h hm rfl hn
    have hi := h.invalid hm hn
    rwa [nanResult_eq] at hi
  obtain ⟨sum, prod, quotient, -, root⟩ := vx_within a b c b
  have difference := (vx_within a b c (fpNegated b)).1
  have add : ∀ sub, vxFused a b c (fpAddend sub b) = bit ([a, b, c].any isSNaN) 7 |||
      (bit times 11 ||| bit (product && isInf b && ((fpSign b != sub) != sign)) 8) := fun sub => by
    have hp : isInfProduct a c = product := by
      show (!isNaN a && !isNaN c && !times && (isInf a || isInf c)) = ((isInf a || isInf c) && !isNaN a && !isNaN c && !times)
      ac_rfl
    rw [vxFused, hp, fpSign_fpAddend, BitVec.or_assoc]
    rfl
  have fusedOf : ∀ {dp sp neg sub result},
      Arithmetic dp sp s frt rc neg (vxFused a b c (fpAddend sub b)) [a, b, c] result → fused sub dp sp := fun h =>
    of h (vx_within a b c _).2.2.2.1 (add _)
  refine ⟨of (fadd_arithmetic hs frt fra frb rc) sum rfl, of (fsub_arithmetic hs frt fra frb rc) difference ?_,
    of (fmul_arithmetic hs frt fra frc rc) prod rfl, of (fdiv_arithmetic hs frt fra frb rc) quotient (BitVec.or_assoc _ _ _),
    fusedOf (fmadd_arithmetic hs frt fra frb frc rc), fusedOf (fmsub_arithmetic hs frt fra frb frc rc),
    fusedOf (fnmadd_arithmetic hs frt fra frb frc rc), fusedOf (fnmsub_arithmetic hs frt fra frb frc rc),
    fun hg => of (fsqrt_arithmetic hs frt frb rc hg) root rfl⟩
  have hsign : (fpSign a != !fpSign b) = (fpSign a == fpSign b) := by cases fpSign a <;> cases fpSign b <;> rfl
  show vxSum a b (fpNegated b) = _
  rw [vxSum, isInf_fpNegated, fpSign_fpNegated, hsign]
  rfl

/-! ### NaN operands (47_fp_model.md R511) -/

/-- FR, FI and FPRF together. -/
theorem fld_result {f : Word} {fr fi : Bool} {c : BitVec 5} (h13 : bitAt f 13 = fr) (h14 : bitAt f 14 = fi)
    (hc : fld f 15 5 = c) : fld f 13 7 = BitVec.ofBool fr ++ BitVec.ofBool fi ++ c := by
  subst h13 h14 hc
  have one : ∀ b : Bool, bitAt (BitVec.ofBool b) 0 = b := by decide
  apply eq_of_bitAt_eq
  intro i hi
  rw [bitAt_fld _ hi (by decide)]
  rcases Nat.lt_or_ge i 2 with h2 | h2
  · rw [bitAt_append_left _ _ h2]
    have : i = 0 ∨ i = 1 := by omega
    rcases this with rfl | rfl
    · rw [bitAt_append_left _ _ (by decide), one]
    · rw [bitAt_append_right _ _ (by decide) (by decide), one]
  · rw [bitAt_append_right _ _ h2 hi, bitAt_fld _ (by omega) (by decide)]
    congr 1
    omega

/-- An instruction that delivers a Quiet NaN without causing an enabled exception. -/
def DeliversNaN (fmt : FpFormat) (res : Res) (s : State) (frt : RegNum) (rc : Bool) (vx : Word) (nan : DWord) : Prop :=
  ∃ t, res = .next t ∧ t.fprOf frt = nan ∧ t.singleOf frt = (fmt.p == 24) ∧ fld t.fpscr 13 7 = 0b0010001 ∧
    SetsException s.fpscr t.fpscr vx ∧ s.FloatingPoint t frt rc s.event

theorem isNaN_quiet {x : DWord} (h : isNaN x = true) : isNaN (quiet x) = true := by
  have q : ∀ i, i < 64 → bitAt (0x0008000000000000 : DWord) i = decide (i = 12) := by decide
  have he : fpExp (quiet x) = fpExp x := congrArg BitVec.toNat (fld_eq_of_bits (by decide) fun i h1 h2 => by
    rw [quiet, bitAt_or, q i (by omega), decide_eq_false (by omega), Bool.or_false])
  have hf : fpFrac (quiet x) ≠ 0 := fun h0 => by
    have hb : bitAt (fld (quiet x) 12 52) 0 = true := by
      rw [bitAt_fld _ (by decide) (by decide), quiet, bitAt_or, q 12 (by decide)]
      simp
    rw [BitVec.eq_of_toNat_eq (y := 0#52) h0] at hb
    exact absurd hb (by decide)
  simp only [isNaN, Bool.and_eq_true, beq_iff_eq, bne_iff_ne] at h ⊢
  exact ⟨he.trans h.1, hf⟩

theorem nanResult_of_nan {xs : List DWord} (h : xs.any isNaN = true) :
    nanResult xs = quiet ((xs.find? isNaN).getD 0) ∧ isNaN (nanResult xs) = true := by
  obtain ⟨x, hx⟩ := Option.isSome_iff_exists.mp (List.find?_isSome.mpr (List.any_eq_true.mp h))
  rw [nanResult_eq, hx]
  exact ⟨rfl, isNaN_quiet (List.find?_some hx)⟩

theorem fpClass_nan (fmt : FpFormat) {x : DWord} (h : isNaN x = true) : fpClass fmt x = 0b10001 := if_pos h

/-- NaN operands, with Invalid Operation disabled or the operation not invalid. -/
theorem Arithmetic.nan {dp sp : Res} {s : State} {frt : RegNum} {rc neg : Bool} {vx : Word} {xs : List DWord}
    {result : ExactResult} (h : Arithmetic dp sp s frt rc neg vx xs result) (hm : BitsWithin fpInvalidBits vx)
    (hn : xs.any isNaN = true) (hv : bitAt s.fpscr 24 = false ∨ vx = 0) :
    DeliversNaN .dp dp s frt rc vx (nanResult xs) ∧
      (xs.all repSingle = true → DeliversNaN .sp sp s frt rc vx (nanResult xs)) :=
  h.both (fun fmt res => DeliversNaN fmt res s frt rc vx (nanResult xs)) fun fmt res _ _ he => by
    by_cases h0 : vx = 0
    · subst h0
      rw [fpOutcome_nan _ _ _ _ _ hn] at he
      obtain ⟨t, ht, e⟩ := he
      obtain ⟨h13, h14, hcl, -⟩ := fpStatus_spec false false (m := 0) (f := s.fpscr) (by decide) (fpClass fmt (nanResult xs))
      obtain ⟨e13, e14, ecl⟩ := e.status
      rw [fpExact, setFrFi_zero_or] at e13 e14 ecl
      refine ⟨t, ht, e.value, e.single, ?_, ?_, e.frame⟩
      · rw [fld_result (e13.trans h13) (e14.trans h14) (ecl.trans hcl), fpClass_nan _ (nanResult_of_nan hn).2]
        rfl
      · rw [e.fpscr]; exact (fpExact_adds fmt _ s.fpscr).setsException
    · have hve := hv.resolve_right h0
      rw [fpOutcome_invalid _ _ _ _ _ h0] at he
      obtain ⟨t, ht, hset, h13, h14, hdel, -, hframe⟩ := he.invalid hm h0
      obtain ⟨hval, hsingle, hcl⟩ := hdel hve
      rw [hve] at hframe
      exact ⟨t, ht, hval, hsingle, by rw [fld_result h13 h14 hcl]; rfl, hset, hframe⟩

end Sys2Proof.Machine
end

section
/-!
PROOFS, family 47_fp_model.md.  NaN operands (O52) and operands that single format does not represent (O54).
-/
namespace Sys2Proof.Machine

theorem or_fpWhen_false (x m : Word) : x ||| fpWhen false m = x := BitVec.or_zero

/-- No operation on a NaN is invalid but for a Signaling NaN or, in a multiply-add, infinity times zero. -/
theorem vx_of_nan (a b c y : DWord) (hy : isNaN y = isNaN b) :
    ([a, b].any isNaN = true → vxSum a b y = vxsnanOf [a, b]) ∧
    ([a, c].any isNaN = true → vxProduct a c = vxsnanOf [a, c]) ∧
    ([a, b].any isNaN = true → vxQuotient a b = vxsnanOf [a, b]) ∧
    ([a, b, c].any isNaN = true → vxFused a b c y = vxsnanOf [a, b, c] ||| fpWhen (isInfTimesZero a c) fpVximz) ∧
    ([b].any isNaN = true → vxRoot b = vxsnanOf [b]) := by
  have inf : ∀ x, isNaN x = true → isInf x = false := fun x h => by
    rw [← Bool.not_eq_true]
    exact fun hi => by simp [isNaN_of_isInf hi] at h
  have zero : ∀ x, isNaN x = true → isZero x = false := fun x h => by
    rw [← Bool.not_eq_true]
    exact fun hz => by simp [finite_of_isZero hz] at h
  refine ⟨fun h => ?_, fun h => ?_, fun h => ?_, fun h => ?_, fun h => ?_⟩ <;>
    simp only [List.any_cons, List.any_nil, Bool.or_false, Bool.or_eq_true] at h
  · have hi : (isInf a && isInf y) = false := by
      rcases h with h | h
      · rw [inf a h, Bool.false_and]
      · rw [inf y (hy.trans h), Bool.and_false]
    rw [vxSum, hi, Bool.false_and, or_fpWhen_false]
  · have hi : isInfTimesZero a c = false := by
      unfold isInfTimesZero
      rcases h with h | h
      · rw [inf a h, zero a h, Bool.false_and, Bool.false_and]; rfl
      · rw [inf c h, zero c h, Bool.and_false, Bool.and_false]; rfl
    rw [vxProduct, hi, or_fpWhen_false]
  · have hi : (isInf a && isInf b) = false ∧ (isZero a && isZero b) = false := by
      rcases h with h | h
      · rw [inf a h, zero a h]; exact ⟨rfl, rfl⟩
      · rw [inf b h, zero b h, Bool.and_false, Bool.and_false]; exact ⟨rfl, rfl⟩
    rw [vxQuotient, hi.1, hi.2, or_fpWhen_false, or_fpWhen_false]
  · have hi : (isInfProduct a c && isInf b) = false := by
      unfold isInfProduct
      rcases h with h | h | h
      · rw [h]; rfl
      · rw [inf b h, Bool.and_false]
      · rw [h, Bool.not_true, Bool.and_false]; rfl
    rw [vxFused, hi, Bool.false_and, or_fpWhen_false]
  · have hi : isNegative b = false := by rw [isNegative, h, Bool.not_true, Bool.and_false, Bool.false_and]
    rw [vxRoot, hi, or_fpWhen_false]

/-- Settles O52: of the Invalid Operation bits only VXSNAN and VXIMZ can be set where an operand is a NaN. -/
theorem nanOperands : Obligations.NaNOperands := by
  intro s frt fra frb frc rc hs a b c pick times gives
  have one : ∀ {fmt res xs imz}, DeliversNaN fmt res s frt rc (vxsnanOf xs ||| fpWhen imz fpVximz) (pick xs) → gives fmt res xs imz := by
    rintro fmt res xs imz ⟨t, ht, hval, hsingle, hres, ⟨hset, hsum, hfx, hout⟩, hframe⟩ - - -
    have mask : vxsnanOf xs ||| fpWhen imz fpVximz ||| 0xE0000000 ||| 0x7F000 =
        0xE007F000 ||| fpWhen (xs.any isSNaN) (fpBit 7) ||| fpWhen imz (fpBit 11) := by
      rw [show (0xE007F000 : Word) = 0xE0000000 ||| 0x7F000 by decide]
      unfold vxsnanOf fpVxsnan fpVximz
      ac_rfl
    have bit : ∀ i, i = 7 ∨ i = 11 → bitAt t.fpscr i =
        (bitAt s.fpscr i || (xs.any isSNaN && decide (i = 7) || imz && decide (i = 11))) := fun i hi => by
      rw [SetsException.bit ⟨hset, hsum, hfx, hout⟩ (by omega) (by omega) (by omega), bitAt_or, vxsnanOf, bitAt_fpWhen,
        bitAt_fpWhen, fpVxsnan, fpVximz, bitAt_fpBit (by omega) (by decide), bitAt_fpBit (by omega) (by decide)]
    refine ⟨t, ht, hval, hsingle, hres, hsum, by rw [mask] at hout; exact hout, ?_, ?_, hframe⟩
    · rw [bit 7 (.inl rfl)]; simp
    · rw [bit 11 (.inr rfl)]; simp
  have of : ∀ {dp sp xs neg vx result} imz, Arithmetic dp sp s frt rc neg vx xs result → BitsWithin fpInvalidBits vx →
      (xs.any isNaN = true → vx = vxsnanOf xs ||| fpWhen imz fpVximz) → gives .dp dp xs imz ∧ gives .sp sp xs imz := by
    intro dp sp xs neg vx result imz h hm hvx
    have both : xs.any isNaN = true → bitAt s.fpscr 24 = false ∨ (xs.any isSNaN = false ∧ imz = false) → _ := fun hn hv =>
      h.nan hm hn (hv.imp_right fun h0 => by rw [hvx hn, vxsnanOf, h0.1, h0.2]; rfl)
    constructor
    · intro hn hrep hv
      have hd := (both hn hv).1
      rw [hvx hn, (nanResult_of_nan hn).1] at hd
      exact one hd hn hrep hv
    · intro hn hrep hv
      have hd := (both hn hv).2 (hrep rfl)
      rw [hvx hn, (nanResult_of_nan hn).1] at hd
      exact one hd hn hrep hv
  have plain : ∀ {xs : List DWord} {vx : Word}, vx = vxsnanOf xs → vx = vxsnanOf xs ||| fpWhen false fpVximz := fun h =>
    h.trans (or_fpWhen_false _ _).symm
  obtain ⟨sum, prod, quotient, -, root⟩ := vx_within a b c b
  obtain ⟨sumNaN, prodNaN, quotientNaN, -, rootNaN⟩ := vx_of_nan a b c b rfl
  have add := of false (fadd_arithmetic hs frt fra frb rc) sum fun h => plain (sumNaN h)
  have sub := of false (fsub_arithmetic hs frt fra frb rc) (vx_within a b c _).1 fun h =>
    plain ((vx_of_nan a b c _ (isNaN_fpNegated b)).1 h)
  have mul := of false (fmul_arithmetic hs frt fra frc rc) prod fun h => plain (prodNaN h)
  have div := of false (fdiv_arithmetic hs frt fra frb rc) quotient fun h => plain (quotientNaN h)
  have addend : ∀ sub, isNaN (fpAddend sub b) = isNaN b := fun sub => by
    cases sub
    · rfl
    · exact isNaN_fpNegated b
  have fused : ∀ {dp sp neg sub result}, Arithmetic dp sp s frt rc neg (vxFused a b c (fpAddend sub b)) [a, b, c] result →
      gives .dp dp [a, b, c] times ∧ gives .sp sp [a, b, c] times := fun h =>
    of times h (vx_within a b c _).2.2.2.1 (vx_of_nan a b c _ (addend _)).2.2.2.1
  have madd := fused (fmadd_arithmetic hs frt fra frb frc rc)
  have msub := fused (fmsub_arithmetic hs frt fra frb frc rc)
  have nmadd := fused (fnmadd_arithmetic hs frt fra frb frc rc)
  have nmsub := fused (fnmsub_arithmetic hs frt fra frb frc rc)
  exact ⟨add.1, add.2, sub.1, sub.2, mul.1, mul.2, div.1, div.2, madd.1, madd.2, msub.1, msub.2, nmadd.1, nmadd.2, nmsub.1,
    nmsub.2, fun hg => of false (fsqrt_arithmetic hs frt frb rc hg) root fun h => plain (rootNaN h)⟩

/-! ### Operands that single format does not represent (47_fp_model.md R516; log entry 20) -/

theorem fpUndefinedStatus_sameOutside (f mask u : Word) : SameOutside (mask ||| 0x60000000) f (fpUndefinedStatus f mask u) := by
  have summary : ∀ i, i < 32 → bitAt (0x60000000 : Word) i = decide (i = 1 ∨ i = 2) := by decide
  refine sameOutside_iff.mpr fun i hi hb => ?_
  rw [bitAt_or, summary i hi, Bool.or_eq_false_iff, decide_eq_false_iff_not, not_or] at hb
  obtain ⟨hm, h1, h2⟩ := hb
  rw [fpUndefinedStatus, fpscrSummed_other _ hi h1 h2, bitAt_or, bitAt_and, bitAt_and, bitAt_not _ hi, hm, Bool.not_false,
    Bool.and_true, Bool.and_false, Bool.or_false]

/-- The instruction goes on with an undefined result: FRT, the FPSCR bits of `mask` and CR Field 1 are free. -/
def GoesOnUndefined (res : Res) (s : State) (frt : RegNum) (rc : Bool) (mask : Word) : Prop :=
  ∃ t, res = .next t ∧ s.OtherFprs t frt ∧ SameOutside (mask ||| 0x60000000) s.fpscr t.fpscr ∧
    FpscrSummaries t.fpscr ∧ (if rc then s.OtherCrFields t 1 else t.cr = s.cr) ∧ s.SameBytes t ∧
    t.event = s.enabledEvent (bitAt t.fpscr 1) ∧
    t = { s with fpr := t.fpr, single := t.single, fpscr := t.fpscr, cr := t.cr, pc := s.nextPc,
                 undef := t.undef, event := t.event }

theorem fpUndefined_goesOn (frt : RegNum) (rc : Bool) (mask : Word) (s : State) :
    GoesOnUndefined (fpUndefined frt rc mask s) s frt rc mask := by
  have others := s.setFpr_otherFprs frt (s.draw 64) true
  have outside := fpUndefinedStatus_sameOutside s.fpscr mask
  have summaries : ∀ u, FpscrSummaries (fpUndefinedStatus s.fpscr mask u) := fun u => fpscrSummed_summaries _
  refine ⟨_, fpComplete_eq _ _, ?_⟩
  cases rc
  · exact ⟨others, outside _, summaries _, rfl, fun _ => rfl, rfl, rfl⟩
  · exact ⟨others, outside _, summaries _, s.otherCrFields_setCrField 1 _, fun _ => rfl, rfl, rfl⟩

/-- Settles O54: every single-precision instruction takes the undefined outcome under its own list of bits. -/
theorem unrepresentableOperands : Obligations.UnrepresentableOperands := by
  intro s frt fra frb frc rc hs goesOn a b c
  have single : ∀ xs mask o, goesOn (fpSingle frt rc xs mask o s) xs mask := fun xs mask o hx => by
    rw [fpSingle, fpGuard_of_ieee _ hs, if_neg (by rw [hx]; decide)]
    exact fpUndefined_goesOn frt rc mask s
  have estimate : ∀ mask run, goesOn (fpGuard s fun _ => if repSingle b then run else fpUndefined frt rc mask s) [b] mask :=
    fun mask run hx => by
      rw [List.all_cons, List.all_nil, Bool.and_true] at hx
      rw [fpGuard_of_ieee _ hs, if_neg (by rw [hx]; decide)]
      exact fpUndefined_goesOn frt rc mask s
  refine ⟨single _ _ _, single _ _ _, single _ _ _, single _ _ _, single _ _ _, single _ _ _, single _ _ _, single _ _ _,
    fun hg => ?_, fun hg => ⟨?_, ?_⟩⟩
  · rw [show exec (.fsqrts frt frb rc) s = _ from ite_not_provided hg _ _]
    exact single _ _ _
  · rw [show exec (.fres frt frb rc) s = _ from ite_not_provided hg _ _]
    exact estimate _ _
  · rw [show exec (.frsqrtes frt frb rc) s = _ from ite_not_provided hg _ _]
    exact estimate _ _

end Sys2Proof.Machine
end

section
/-!
PROOFS, family 47_fp_model.md.  DOUBLE and SINGLE are inverse to each other (O37).
-/
namespace Sys2Proof.Machine

/-! ## DOUBLE and SINGLE (48_fp_load_store_move.md R581, R590) -/

theorem toNat_append_add {a b : Nat} (x : BitVec a) (y : BitVec b) : (x ++ y).toNat = x.toNat * 2 ^ b + y.toNat := by
  rw [BitVec.toNat_append, ← Nat.shiftLeft_add_eq_or_of_lt y.isLt, Nat.shiftLeft_eq]

theorem toNat_fld {w : Nat} (x : BitVec w) (start len : Nat) :
    (fld x start len).toNat = x.toNat / 2 ^ (w - start - len) % 2 ^ len := by
  rw [fld, BitVec.extractLsb'_toNat, Nat.shiftRight_eq_div_pow]

/-- The biased exponent of a single-format word. -/
def singleExp (w : Word) : Nat := w.toNat / 2 ^ 23 % 2 ^ 8

/-- The fraction of a single-format word. -/
def singleFrac (w : Word) : Nat := w.toNat % 2 ^ 23

theorem fld_singleExp (w : Word) : (fld w 1 8).toNat = singleExp w := toNat_fld w 1 8

theorem fld_singleFrac (w : Word) : (fld w 9 23).toNat = singleFrac w := by
  rw [toNat_fld, singleFrac]; simp

theorem fld_ne_zero_iff {w len : Nat} (x : BitVec w) (start : Nat) : fld x start len ≠ 0 ↔ (fld x start len).toNat ≠ 0 := by
  rw [Ne, ← BitVec.toNat_inj]; rfl

/-- `DOUBLE` of a denormalized word. -/
theorem toDouble_denormal {w : Word} (he : singleExp w = 0) (hf : singleFrac w ≠ 0) :
    toDouble w = packD (bitAt w 0) (singleFrac w) (-149) := by
  have hz : (fld w 1 8).toNat = 0 := (fld_singleExp w).trans he
  have hnz : fld w 9 23 ≠ 0 := (fld_ne_zero_iff w 9).mpr (by rwa [fld_singleFrac])
  simp only [toDouble, hz, fld_singleFrac, lt_irrefl, false_and, if_false, true_and, if_pos hnz]

theorem bitAt_word_sign (w : Word) : bitAt w 0 = decide (2 ^ 31 ≤ w.toNat) := by
  have hw := w.isLt
  rw [bitAt, BitVec.getLsbD, Nat.testBit_eq_decide_div_mod_eq, decide_eq_decide]
  omega

/-- A word of single format is determined by its fields. -/
theorem eq_of_singleFields {v w : Word} (hs : bitAt v 0 = bitAt w 0) (he : singleExp v = singleExp w)
    (hf : singleFrac v = singleFrac w) : v = w := by
  have hv := v.isLt
  have hw := w.isLt
  rw [bitAt_word_sign, bitAt_word_sign, decide_eq_decide] at hs
  unfold singleExp at he
  unfold singleFrac at hf
  exact BitVec.eq_of_toNat_eq (by omega)

/-- What `DOUBLE` puts together where it repeats the high-order exponent bit, as a number. -/
theorem toDouble_toNat {w : Word} (h : singleExp w ≠ 0 ∨ singleFrac w = 0) :
    ∃ b : Nat, b = (if 0 < singleExp w ∧ singleExp w < 255 then 1 - w.toNat / 2 ^ 30 % 2 else w.toNat / 2 ^ 30 % 2) ∧
      (toDouble w).toNat = (w.toNat / 2 ^ 30 * 8 + 7 * b) * 2 ^ 59 + w.toNat % 2 ^ 30 * 2 ^ 29 := by
  have hno : ¬ (singleExp w = 0 ∧ fld w 9 23 ≠ 0) := fun hc => by
    rw [fld_ne_zero_iff, fld_singleFrac] at hc
    exact h.elim (· hc.1) hc.2
  have hb : (fld w 1 1).toNat = w.toNat / 2 ^ 30 % 2 := toNat_fld w 1 1
  have ht : (fld w 0 2).toNat = w.toNat / 2 ^ 30 % 4 := toNat_fld w 0 2
  have hl : (fld w 2 30).toNat = w.toNat % 2 ^ 30 := by rw [toNat_fld]; simp
  have hw := w.isLt
  have h4 : w.toNat / 2 ^ 30 % 4 = w.toNat / 2 ^ 30 := by omega
  unfold toDouble
  simp only [fld_singleExp, if_neg hno]
  split
  · refine ⟨_, rfl, ?_⟩
    simp only [toNat_append_add, BitVec.toNat_not, hb, ht, hl, h4]
    generalize w.toNat / 2 ^ 30 = top
    have : (0 : BitVec 29).toNat = 0 := rfl
    omega
  · refine ⟨_, rfl, ?_⟩
    simp only [toNat_append_add, hb, ht, hl, h4]
    generalize w.toNat / 2 ^ 30 = top
    have : (0 : BitVec 29).toNat = 0 := rfl
    omega

/-- The fields of `DOUBLE` where it repeats the high-order exponent bit, inverted for a normalized number. -/
theorem toDouble_fields {w : Word} (h : singleExp w ≠ 0 ∨ singleFrac w = 0) :
    fpSign (toDouble w) = bitAt w 0 ∧
      fpExp (toDouble w) = (if singleExp w = 0 then 0 else if singleExp w = 255 then 2047 else singleExp w + 896) ∧
      fpFrac (toDouble w) = singleFrac w * 2 ^ 29 := by
  obtain ⟨b, hb, hn⟩ := toDouble_toNat h
  have hw := w.isLt
  rw [fpSign_eq, fpExp_eq, fpFrac_eq, hn, bitAt_word_sign, decide_eq_decide]
  unfold singleExp singleFrac at *
  have top : w.toNat / 2 ^ 30 = 0 ∨ w.toNat / 2 ^ 30 = 1 ∨ w.toNat / 2 ^ 30 = 2 ∨ w.toNat / 2 ^ 30 = 3 := by omega
  rcases top with t | t | t | t
  all_goals
    rw [t] at hb ⊢
    split at hb
    all_goals
      subst hb
      refine ⟨by omega, ?_, by omega⟩
      repeat' split
      all_goals omega

/-- `SINGLE` of a value that is no denormalized single-format number: the fields move back. -/
theorem toSingle_fields {x : DWord} (h : 896 < fpExp x ∨ (fpExp x = 0 ∧ fpFrac x = 0)) :
    ∃ w, toSingle x = some w ∧ bitAt w 0 = fpSign x ∧ singleExp w = fpExp x / 1024 * 128 + fpExp x % 128 ∧
      singleFrac w = fpFrac x / 2 ^ 29 := by
  have hz : 896 < fpExp x ∨ fld x 1 63 = 0 := h.imp_right fun ⟨he, hf⟩ => by
    rw [fpExp_eq] at he
    rw [fpFrac_eq] at hf
    apply BitVec.eq_of_toNat_eq
    rw [toNat_fld]
    show _ = 0
    omega
  have hx := x.isLt
  have hw : (fld x 0 2 ++ fld x 5 30).toNat = x.toNat / 2 ^ 62 * 2 ^ 30 + x.toNat / 2 ^ 29 % 2 ^ 30 := by
    rw [toNat_append_add, toNat_fld, toNat_fld]
    omega
  refine ⟨_, if_pos hz, ?_, ?_, ?_⟩
  · rw [bitAt_word_sign, hw, fpSign_eq, decide_eq_decide]
    omega
  · rw [singleExp, hw, fpExp_eq]
    omega
  · rw [singleFrac, hw, fpFrac_eq]
    omega

/-- `SINGLE` of a denormalized single-format number. -/
theorem toSingle_denormal {x : DWord} (h1 : 874 ≤ fpExp x) (h2 : fpExp x ≤ 896) :
    ∃ w, toSingle x = some w ∧ bitAt w 0 = fpSign x ∧ singleExp w = 0 ∧
      singleFrac w = (2 ^ 52 + fpFrac x) / 2 ^ (926 - fpExp x) := by
  have hno : ¬ (896 < fpExp x ∨ fld x 1 63 = 0) := by
    rintro (h | h)
    · omega
    · have h0 := congrArg BitVec.toNat h
      rw [toNat_fld] at h0
      rw [fpExp_eq] at h1
      have : x.toNat % 2 ^ 63 = 0 := by simpa using h0
      omega
  have hk : 897 - fpExp x + 29 = 926 - fpExp x := by omega
  have hm : (2 ^ 52 + fpFrac x) / 2 ^ (926 - fpExp x) < 2 ^ 23 := by
    rw [Nat.div_lt_iff_lt_mul (by positivity), ← pow_add]
    calc 2 ^ 52 + fpFrac x < 2 ^ 53 := by have := fpFrac_lt x; omega
      _ ≤ 2 ^ (23 + (926 - fpExp x)) := Nat.pow_le_pow_right (by decide) (by omega)
  refine ⟨fld x 0 1 ++ (0 : BitVec 8) ++ BitVec.ofNat 23 ((2 ^ 52 + fpFrac x) / 2 ^ (926 - fpExp x)),
    by rw [toSingle, if_neg hno, if_pos h1, hk], ?_, ?_⟩
  · rw [bitAt_append_left _ _ (by decide), bitAt_append_left _ _ (by decide), bitAt_fld _ (by decide) (by decide)]
    rfl
  · generalize (2 ^ 52 + fpFrac x) / 2 ^ (926 - fpExp x) = m at hm
    have hz : (0 : BitVec 8).toNat = 0 := rfl
    rw [singleExp, singleFrac, toNat_append_add, toNat_append_add, BitVec.toNat_ofNat, Nat.mod_eq_of_lt hm, hz]
    omega

/-- The fields of `DOUBLE` of a denormalized word. -/
theorem toDouble_denormal_fields {w : Word} (he : singleExp w = 0) (hf : singleFrac w ≠ 0) :
    fpSign (toDouble w) = bitAt w 0 ∧ fpExp (toDouble w) = (singleFrac w).log2 + 874 ∧ (singleFrac w).log2 ≤ 22 ∧
      2 ^ 52 + fpFrac (toDouble w) = singleFrac w * 2 ^ (52 - (singleFrac w).log2) := by
  have hlt : singleFrac w < 2 ^ 23 := Nat.mod_lt _ (by decide)
  have hl : (singleFrac w).log2 ≤ 22 := Nat.lt_succ_iff.mp ((Nat.log2_lt hf).mpr hlt)
  obtain ⟨hs, hexp, hfrac⟩ := packD_normal (bitAt w 0) hf (q := -149) (by omega) (by omega) (by omega)
  rw [toDouble_denormal he hf]
  refine ⟨hs, by omega, hl, ?_⟩
  rw [hfrac, scale_of_nonneg _ (by omega)]
  congr 2
  omega

theorem repSingle_iff (x : DWord) : repSingle x = true ↔
    fpExp x = 0 ∧ fpFrac x = 0 ∨ fpExp x = 2047 ∧ fpFrac x % 2 ^ 29 = 0 ∨
      (897 ≤ fpExp x ∧ fpExp x ≤ 1150) ∧ fpFrac x % 2 ^ 29 = 0 ∨
      (874 ≤ fpExp x ∧ fpExp x ≤ 896) ∧ fpFrac x % 2 ^ (926 - fpExp x) = 0 := by
  have hk : 29 + 897 - fpExp x = 926 - fpExp x := by omega
  have h0 : fpFrac x = 0 → fpFrac x % 2 ^ 29 = 0 := fun h => by rw [h]; rfl
  simp only [repSingle, isZero, isInf, isNaN, hk, Bool.or_eq_true, Bool.and_eq_true, beq_iff_eq, bne_iff_ne,
    decide_eq_true_eq]
  tauto

/-- What is not denormalized in single format goes through `SINGLE` and back. -/
theorem toDouble_toSingle_word {x : DWord} (h : fpExp x = 0 ∧ fpFrac x = 0 ∨
      (fpExp x = 2047 ∨ 897 ≤ fpExp x ∧ fpExp x ≤ 1150) ∧ fpFrac x % 2 ^ 29 = 0) :
    ∃ w, toSingle x = some w ∧ toDouble w = x := by
  obtain ⟨w, hw, hs, he, hf⟩ := toSingle_fields (x := x) (by omega)
  obtain ⟨hs', he', hf'⟩ := toDouble_fields (w := w) (by omega)
  refine ⟨w, hw, eq_of_fields (hs'.trans hs) ?_ (by omega)⟩
  rw [he', he]
  repeat' split
  all_goals omega

/-- A denormalized single-format number goes through `SINGLE` and back. -/
theorem toDouble_toSingle_denormal {x : DWord} (h1 : 874 ≤ fpExp x) (h2 : fpExp x ≤ 896)
    (h : fpFrac x % 2 ^ (926 - fpExp x) = 0) : ∃ w, toSingle x = some w ∧ toDouble w = x := by
  obtain ⟨w, hw, hs, he, hf⟩ := toSingle_denormal h1 h2
  have hlt := fpFrac_lt x
  have hdvd : 2 ^ (926 - fpExp x) ∣ 2 ^ 52 + fpFrac x :=
    Nat.dvd_add (pow_dvd_pow 2 (by omega)) (Nat.dvd_of_mod_eq_zero h)
  have hmul : singleFrac w * 2 ^ (926 - fpExp x) = 2 ^ 52 + fpFrac x := by rw [hf]; exact Nat.div_mul_cancel hdvd
  have hnz : singleFrac w ≠ 0 := fun h0 => by rw [h0] at hmul; omega
  have hlog : (singleFrac w).log2 = fpExp x - 874 := by
    rw [Nat.log2_eq_iff hnz]
    have lo : 2 ^ (fpExp x - 874) * 2 ^ (926 - fpExp x) = 2 ^ 52 := by rw [← pow_add]; congr 1; omega
    have hi : 2 ^ (fpExp x - 874 + 1) * 2 ^ (926 - fpExp x) = 2 ^ 53 := by rw [← pow_add]; congr 1; omega
    constructor
    · exact Nat.le_of_mul_le_mul_right (by rw [lo, hmul]; omega) (by positivity)
    · exact Nat.lt_of_mul_lt_mul_right (a := 2 ^ (926 - fpExp x)) (by rw [hi, hmul]; omega)
  obtain ⟨hs', he', -, hf'⟩ := toDouble_denormal_fields he hnz
  refine ⟨w, hw, eq_of_fields (hs'.trans hs) (by omega) ?_⟩
  have hk : 52 - (singleFrac w).log2 = 926 - fpExp x := by omega
  rw [hk, hmul] at hf'
  omega

/-- `DOUBLE` of a denormalized word is representable, and `SINGLE` brings the word back. -/
theorem toSingle_toDouble_denormal {w : Word} (he : singleExp w = 0) (hnz : singleFrac w ≠ 0) :
    repSingle (toDouble w) = true ∧ toSingle (toDouble w) = some w := by
  obtain ⟨hs, hexp, hl, hfrac⟩ := toDouble_denormal_fields he hnz
  have hk : 926 - fpExp (toDouble w) = 52 - (singleFrac w).log2 := by omega
  have hmod : fpFrac (toDouble w) % 2 ^ (926 - fpExp (toDouble w)) = 0 := by
    have hd : 2 ^ (926 - fpExp (toDouble w)) ∣ 2 ^ 52 + fpFrac (toDouble w) := by
      rw [hfrac, hk]
      exact Dvd.intro_left _ rfl
    exact Nat.mod_eq_zero_of_dvd ((Nat.dvd_add_right (pow_dvd_pow 2 (by omega))).mp hd)
  obtain ⟨v, hv, hvs, hve, hvf⟩ := toSingle_denormal (x := toDouble w) (by omega) (by omega)
  rw [hfrac, hk, Nat.mul_div_cancel _ (by positivity)] at hvf
  refine ⟨(repSingle_iff _).mpr (.inr (.inr (.inr ⟨by omega, hmod⟩))), ?_⟩
  rw [hv, eq_of_singleFields (hvs.trans hs) (hve.trans he.symm) hvf]

/-- `DOUBLE` of any other word is representable, and `SINGLE` brings the word back. -/
theorem toSingle_toDouble_word {w : Word} (h : singleExp w ≠ 0 ∨ singleFrac w = 0) :
    repSingle (toDouble w) = true ∧ toSingle (toDouble w) = some w := by
  obtain ⟨hs, he, hf⟩ := toDouble_fields h
  have hlt : singleExp w < 256 := Nat.mod_lt _ (by decide)
  have hclass : fpExp (toDouble w) = 0 ∧ singleExp w = 0 ∧ fpFrac (toDouble w) = 0 ∨
      fpExp (toDouble w) = 2047 ∧ singleExp w = 255 ∧ fpFrac (toDouble w) % 2 ^ 29 = 0 ∨
      (897 ≤ fpExp (toDouble w) ∧ fpExp (toDouble w) ≤ 1150) ∧ fpExp (toDouble w) = singleExp w + 896 ∧
        fpFrac (toDouble w) % 2 ^ 29 = 0 := by
    rw [he, hf]
    repeat' split
    all_goals omega
  obtain ⟨v, hv, hvs, hve, hvf⟩ := toSingle_fields (x := toDouble w) (by omega)
  refine ⟨(repSingle_iff _).mpr (by tauto), ?_⟩
  rw [hv, eq_of_singleFields (hvs.trans hs) (by omega) (by omega)]

/-- Settles O37: the fields of the two conversions, by the kinds of word and of representable pattern. -/
theorem singleDoubleInverse : Obligations.SingleDoubleInverse := by
  refine ⟨fun w => ?_, fun x hx => ?_⟩
  · by_cases hd : singleExp w = 0 ∧ singleFrac w ≠ 0
    · exact toSingle_toDouble_denormal hd.1 hd.2
    · exact toSingle_toDouble_word (by tauto)
  · rcases (repSingle_iff x).mp hx with h | h | h | ⟨⟨h1, h2⟩, h⟩
    · exact toDouble_toSingle_word (.inl h)
    · exact toDouble_toSingle_word (.inr ⟨.inl h.1, h.2⟩)
    · exact toDouble_toSingle_word (.inr ⟨.inr h.1, h.2⟩)
    · exact toDouble_toSingle_denormal h1 h2 h

end Sys2Proof.Machine
end

section
/-!
PROOFS, family 47_fp_model.md.  The four rounding modes (O44).
-/
namespace Sys2Proof.Machine

/-! ## The four rounding modes (47_fp_model.md R520, R523) -/

/-- Rounding an integer number of units of `2^e` to units of `2^(e + k)`: the quotient by `2^k`, incremented as the mode and the
remainder say. -/
theorem roundQ_integer (s : Bool) (sig k : Nat) (e : Int) (mode : BitVec 2) :
    ∃ n low, sig = n * 2 ^ k + low ∧ low < 2 ^ k ∧
      let r := roundQ s ⟨sig, e, false⟩ (e + k) mode
      (r.inexact = true ↔ low ≠ 0) ∧
      (r.inc = true ↔ (mode = 0 ∧ (2 ^ k < 2 * low ∨ 2 * low = 2 ^ k ∧ n % 2 = 1)) ∨ (mode = 2 ∧ s = false ∧ low ≠ 0) ∨
        (mode = 3 ∧ s = true ∧ low ≠ 0)) ∧
      r.units = if r.inc then n + 1 else n := by
  obtain ⟨n, rem, hv, h0, h1, hinexact, hinc, hunits⟩ :=
    roundQ_roundsAt s ⟨sig, e, false⟩ (e + k) mode (sig * (2 : ℝ) ^ e) rfl (fun h => by cases h)
  have he : (0 : ℝ) < 2 ^ e := by positivity
  rw [zpow_add₀ two_ne_zero, zpow_natCast, mul_comm ((2 : ℝ) ^ e)] at hv h1 hinc
  have hle : n * 2 ^ k ≤ sig := by
    have : (n : ℝ) * 2 ^ k ≤ sig := le_of_mul_le_mul_right (by linarith) he
    exact_mod_cast this
  obtain ⟨low, rfl⟩ := Nat.exists_eq_add_of_le hle
  have hrem : rem = low * (2 : ℝ) ^ e := by
    push_cast at hv
    linarith
  subst hrem
  rw [mul_lt_mul_iff_left₀ he] at h1
  rw [mul_ne_zero_iff, and_iff_left he.ne'] at hinexact hinc
  rw [← mul_assoc, mul_lt_mul_iff_left₀ he, mul_left_inj' he.ne'] at hinc
  exact ⟨n, low, rfl, by exact_mod_cast h1, by exact_mod_cast hinexact, by exact_mod_cast hinc, hunits⟩

/-- Settles O44: with and without an increment, the remainder against half a unit says what each mode gives. -/
theorem roundingModes : Obligations.RoundingModes := by
  intro s sig k e mode r down up
  obtain ⟨n, low, hsig, hlow, (hinexact : r.inexact = true ↔ low ≠ 0), (hinc : r.inc = true ↔ _),
    (hunits : r.units = if r.inc then n + 1 else n)⟩ := roundQ_integer s sig k e mode
  have hix : r.inexact = decide (low ≠ 0) := by rw [Bool.eq_iff_iff, hinexact, decide_eq_true_iff]
  have m1 : mode = 1 → r.inc = false := by
    rintro rfl
    simpa using hinc
  cases hc : r.inc
  · rw [hc] at hinc
    have hu : r.units = n := by rw [hunits, hc]; rfl
    have hsum : n * 2 ^ k ≤ sig ∧ sig < (n + 1) * 2 ^ k := by rw [Nat.succ_mul]; omega
    have hups : low = 0 → sig ≤ n * 2 ^ k ∧ n * 2 ^ k < sig + 2 ^ k := by omega
    simp only [down, up, hu]
    simp only [Bool.false_eq_true, false_iff, not_or, not_and, not_lt, ne_eq, not_not] at hinc
    obtain ⟨h0, h2, h3⟩ := hinc
    refine ⟨?_, (decide_eq_false (by omega)).symm, fun hm => ?_, fun _ => hsum, fun hm => ?_, fun hm => ?_⟩
    · rw [hix, decide_eq_decide]
      omega
    · have := h0 hm
      rw [hinexact, Nat.add_mul, Nat.mul_assoc, Nat.one_mul]
      omega
    · cases s
      · exact hups (h2 hm rfl)
      · exact hsum
    · cases s
      · exact hsum
      · exact hups (h3 hm rfl)
  · have hu : r.units = n + 1 := by rw [hunits, hc]; rfl
    have h1 := (hinc.mp hc)
    have hpos : low ≠ 0 := by omega
    have hups : sig ≤ (n + 1) * 2 ^ k ∧ (n + 1) * 2 ^ k < sig + 2 ^ k := by rw [Nat.succ_mul]; omega
    simp only [down, up, hu]
    refine ⟨?_, ?_, fun hm => ?_, fun hm => ?_, fun hm => ?_, fun hm => ?_⟩
    · rw [hix, decide_eq_decide, Nat.succ_mul]
      omega
    · rw [Nat.succ_mul]
      exact (decide_eq_true (by omega)).symm
    · have half : 2 ^ k < 2 * low ∨ 2 * low = 2 ^ k ∧ n % 2 = 1 := by
        subst hm
        simpa using h1
      have e1 : (2 * (n + 1) + 1) * 2 ^ k = 2 * (n * 2 ^ k) + 3 * 2 ^ k := by ring
      have e2 : 2 * (n + 1) * 2 ^ k = 2 * (n * 2 ^ k) + 2 * 2 ^ k := by ring
      rw [e1, e2]
      omega
    · rw [m1 hm] at hc
      cases hc
    · cases s
      · exact hups
      · subst hm
        simp at h1
    · cases s
      · subst hm
        simp at h1
      · exact hups

end Sys2Proof.Machine
end

section
/-!
PROOFS, family 47_fp_model.md.  The range of exact results, which the exponent adjustments reach (47_fp_model.md R547, R550).
-/
namespace Sys2Proof.Machine

/-! ## The range of exact results -/

/-- The exponent of a finite pattern, that of the least normalized number for a denormalized one. -/
def fpExponent (x : DWord) : ℤ := max ((fpExp x : ℤ) - 1023) (-1022)

theorem fpWeight_eq (x : DWord) : fpWeight x = fpExponent x - 52 := by
  unfold fpWeight fpExponent
  split <;> omega

theorem abs_fpRat_lt (x : DWord) : |(fpRat x : ℝ)| < (2 : ℝ) ^ (fpExponent x + 1) := by
  have hs : (fpSig x : ℝ) < 2 ^ 53 := by exact_mod_cast fpSig_lt x
  have hp : (0 : ℝ) < 2 ^ fpWeight x := by positivity
  calc |(fpRat x : ℝ)| = fpSig x * (2 : ℝ) ^ fpWeight x := abs_fpRat x
    _ < 2 ^ 53 * (2 : ℝ) ^ fpWeight x := mul_lt_mul_of_pos_right hs hp
    _ = (2 : ℝ) ^ (fpExponent x + 1) := by
      rw [← zpow_natCast, ← zpow_add₀ two_ne_zero, fpWeight_eq]
      congr 1
      push_cast
      ring

theorem le_abs_fpRat {x : DWord} (h : fpExp x ≠ 0) : (2 : ℝ) ^ ((fpExp x : ℤ) - 1023) ≤ |(fpRat x : ℝ)| := by
  have hs : (2 : ℝ) ^ 52 ≤ fpSig x := by
    have : 2 ^ 52 ≤ fpSig x := by rw [fpSig, if_neg h]; omega
    exact_mod_cast this
  have hp : (0 : ℝ) < 2 ^ fpWeight x := by positivity
  calc (2 : ℝ) ^ ((fpExp x : ℤ) - 1023) = 2 ^ 52 * (2 : ℝ) ^ fpWeight x := by
        rw [← zpow_natCast, ← zpow_add₀ two_ne_zero, fpWeight, if_neg h]
        congr 1
        push_cast
        ring
    _ ≤ fpSig x * (2 : ℝ) ^ fpWeight x := mul_le_mul_of_nonneg_right hs hp.le
    _ = |(fpRat x : ℝ)| := (abs_fpRat x).symm

/-- The precision takes the operand `x`: any in double precision, those that single format represents in single precision. -/
def FpFormat.Takes (fmt : FpFormat) (x : DWord) : Prop := fmt.p = 24 → repSingle x = true

theorem mul_two_pow_zpow (m k : ℕ) (q : ℤ) : ((m * 2 ^ k : ℕ) : ℝ) * 2 ^ q = m * (2 : ℝ) ^ (k + q) := by
  rw [Nat.cast_mul, Nat.cast_pow, Nat.cast_ofNat, zpow_add₀ two_ne_zero, zpow_natCast, mul_assoc]

/-- A value that single format represents has 24 bits, fewer where it is denormalized there. -/
theorem repSingle_multiple {x : DWord} (hr : repSingle x = true) (hf : fpExp x ≠ 2047) :
    (∃ m : ℕ, |(fpRat x : ℝ)| = m * (2 : ℝ) ^ (max ((fpExp x : ℤ) - 1023) (-126) - 23)) ∧ fpExp x ≤ 1150 := by
  rw [abs_fpRat]
  have bits : ∀ k : ℕ, fpSig x % 2 ^ k = 0 → (k : ℤ) + fpWeight x = max ((fpExp x : ℤ) - 1023) (-126) - 23 →
      ∃ m : ℕ, fpSig x * (2 : ℝ) ^ fpWeight x = m * (2 : ℝ) ^ (max ((fpExp x : ℤ) - 1023) (-126) - 23) := fun k hm hk => by
    obtain ⟨m, hm⟩ := Nat.dvd_of_mod_eq_zero hm
    exact ⟨m, by rw [hm, mul_comm (2 ^ k), mul_two_pow_zpow, hk]⟩
  have hsig : fpExp x ≠ 0 → ∀ k, k ≤ 52 → fpFrac x % 2 ^ k = 0 → fpSig x % 2 ^ k = 0 := fun h0 k hk hm => by
    rw [fpSig, if_neg h0]
    exact Nat.mod_eq_zero_of_dvd (Nat.dvd_add (pow_dvd_pow 2 hk) (Nat.dvd_of_mod_eq_zero hm))
  have hw : fpExp x ≠ 0 → fpWeight x = (fpExp x : ℤ) - 1075 := fun h0 => if_neg h0
  rcases (repSingle_iff x).mp hr with ⟨h0, h1⟩ | ⟨h, -⟩ | ⟨⟨h1, h2⟩, hm⟩ | ⟨⟨h1, h2⟩, hm⟩
  · have hz : fpSig x = 0 := by rw [fpSig, if_pos h0, h1]
    exact ⟨⟨0, by rw [hz]; simp⟩, by omega⟩
  · exact absurd h hf
  · have h0 : fpExp x ≠ 0 := by omega
    exact ⟨bits 29 (hsig h0 29 (by decide) hm) (by rw [hw h0]; omega), h2⟩
  · have h0 : fpExp x ≠ 0 := by omega
    exact ⟨bits (926 - fpExp x) (hsig h0 _ (by omega) hm) (by rw [hw h0]; omega), by omega⟩

/-- A finite operand that the precision takes has as many bits as the precision. -/
theorem FpFormat.Standard.operand {fmt : FpFormat} (hf : fmt.Standard) {x : DWord} (ht : fmt.Takes x) (hx : fpExp x ≠ 2047) :
    (∃ m : ℕ, |(fpRat x : ℝ)| = m * (2 : ℝ) ^ (max ((fpExp x : ℤ) - 1023) fmt.emin - (fmt.p - 1))) ∧
      |(fpRat x : ℝ)| < (2 : ℝ) ^ (fmt.emax + 1) := by
  have hlt := fpExp_lt x
  have upper : ∀ k : ℤ, fpExponent x ≤ k → |(fpRat x : ℝ)| < (2 : ℝ) ^ (k + 1) := fun k hk =>
    (abs_fpRat_lt x).trans_le (zpow_le_zpow_right₀ one_le_two (by omega))
  rcases hf.known with rfl | rfl
  · refine ⟨⟨fpSig x, ?_⟩, upper 1023 (by unfold fpExponent; omega)⟩
    rw [abs_fpRat, fpWeight_eq]
    rfl
  · obtain ⟨hm, he⟩ := repSingle_multiple (ht rfl) hx
    exact ⟨hm, upper 127 (by unfold fpExponent; omega)⟩

/-! ### Multiples of a power of 2 -/

/-- `v` is an integer number of units of `2^k`. -/
def IsMultiple (k : ℤ) (v : ℝ) : Prop := ∃ n : ℤ, v = n * (2 : ℝ) ^ k

theorem IsMultiple.mul {j k : ℤ} {v w : ℝ} (h : IsMultiple j v) (h' : IsMultiple k w) : IsMultiple (j + k) (v * w) := by
  obtain ⟨m, rfl⟩ := h
  obtain ⟨n, rfl⟩ := h'
  exact ⟨m * n, by rw [zpow_add₀ two_ne_zero]; push_cast; ring⟩

theorem IsMultiple.add {k : ℤ} {v w : ℝ} (h : IsMultiple k v) (h' : IsMultiple k w) : IsMultiple k (v + w) := by
  obtain ⟨m, rfl⟩ := h
  obtain ⟨n, rfl⟩ := h'
  exact ⟨m + n, by push_cast; ring⟩

theorem IsMultiple.mono {j k : ℤ} {v : ℝ} (h : IsMultiple k v) (hjk : j ≤ k) : IsMultiple j v := by
  obtain ⟨m, rfl⟩ := h
  have hk : k = (k - j).toNat + j := by omega
  refine ⟨m * 2 ^ (k - j).toNat, ?_⟩
  rw [hk, zpow_add₀ two_ne_zero, zpow_natCast, ← hk]
  push_cast
  ring

theorem IsMultiple.of_abs {k : ℤ} {v : ℝ} {m : ℕ} (h : |v| = m * (2 : ℝ) ^ k) : IsMultiple k v := by
  rcases abs_eq_abs.mp (h.trans (abs_of_nonneg (by positivity)).symm) with rfl | rfl
  · exact ⟨m, by push_cast; rfl⟩
  · exact ⟨-m, by push_cast; ring⟩

/-- A nonzero multiple is at least the unit. -/
theorem IsMultiple.le_abs {k : ℤ} {v : ℝ} (h : IsMultiple k v) (h0 : v ≠ 0) : (2 : ℝ) ^ k ≤ |v| := by
  obtain ⟨n, rfl⟩ := h
  have hp : (0 : ℝ) < 2 ^ k := by positivity
  have hn : n ≠ 0 := fun hz => h0 (by rw [hz]; simp)
  have h1 : (1 : ℝ) ≤ |(n : ℝ)| := by exact_mod_cast Int.one_le_abs hn
  rw [abs_mul, abs_of_pos hp]
  exact le_mul_of_one_le_left hp.le h1

/-- `v` is in the range and in the least unit of the precision, as operands are. -/
structure FpFormat.Spans (fmt : FpFormat) (v : ℝ) : Prop where
  multiple : IsMultiple (fmt.emin - (fmt.p - 1)) v
  bound    : |v| < (2 : ℝ) ^ (fmt.emax + 1)

/-- `v` is within reach of the exponent adjustment of the precision. -/
def FpFormat.Reaches (fmt : FpFormat) (v : ℝ) : Prop :=
  (2 : ℝ) ^ (-1022 - fmt.adj) ≤ |v| ∧ |v| < (2 : ℝ) ^ (1023 + fmt.adj)

theorem FpFormat.Standard.spans {fmt : FpFormat} (hf : fmt.Standard) {x : DWord} (ht : fmt.Takes x) (hx : fpExp x ≠ 2047) :
    fmt.Spans (fpRat x) := by
  obtain ⟨⟨m, hm⟩, hb⟩ := hf.operand ht hx
  exact ⟨(IsMultiple.of_abs hm).mono (by omega), hb⟩

theorem FpFormat.Standard.spans_one {fmt : FpFormat} (hf : fmt.Standard) : fmt.Spans 1 := by
  have hE : (0 : ℤ) < fmt.emax + 1 ∧ fmt.emin - (fmt.p - 1) ≤ 0 := by rcases hf.known with rfl | rfl <;> decide
  refine ⟨IsMultiple.mono ⟨1, by simp⟩ hE.2, ?_⟩
  rw [abs_one]
  exact one_lt_zpow₀ one_lt_two hE.1

theorem FpFormat.spans_zero (fmt : FpFormat) : fmt.Spans 0 := ⟨⟨0, by simp⟩, by rw [abs_zero]; positivity⟩

theorem FpFormat.Spans.neg {fmt : FpFormat} {v : ℝ} (h : fmt.Spans v) : fmt.Spans (-v) := by
  obtain ⟨⟨n, hn⟩, hb⟩ := h
  exact ⟨⟨-n, by rw [hn]; push_cast; ring⟩, by rwa [abs_neg]⟩

/-- A nonzero product plus addend is within reach. -/
theorem FpFormat.Standard.reaches_fused {fmt : FpFormat} (hf : fmt.Standard) {x z y : ℝ} (hx : fmt.Spans x)
    (hz : fmt.Spans z) (hy : fmt.Spans y) (h0 : x * z + y ≠ 0) : fmt.Reaches (x * z + y) := by
  have hk : -1022 - fmt.adj ≤ fmt.emin - (fmt.p - 1) + (fmt.emin - (fmt.p - 1)) ∧ fmt.emin - (fmt.p - 1) ≤ 0 ∧
      0 ≤ fmt.emax + 1 ∧ fmt.emax + 1 + (fmt.emax + 1) + 1 ≤ 1023 + fmt.adj := by
    rcases hf.known with rfl | rfl <;> decide
  obtain ⟨h1, h2, h3, h4⟩ := hk
  have hm := (hx.multiple.mul hz.multiple).add (hy.multiple.mono (by omega))
  refine ⟨(zpow_le_zpow_right₀ one_le_two h1).trans (hm.le_abs h0), ?_⟩
  have hE : (0 : ℝ) < 2 ^ (fmt.emax + 1) := by positivity
  calc |x * z + y| ≤ |x| * |z| + |y| := by rw [← abs_mul]; exact abs_add_le _ _
    _ < 2 ^ (fmt.emax + 1) * 2 ^ (fmt.emax + 1) + 2 ^ (fmt.emax + 1) * (2 : ℝ) ^ (fmt.emax + 1) :=
      add_lt_add_of_le_of_lt (mul_le_mul hx.bound.le hz.bound.le (abs_nonneg z) hE.le)
        (hy.bound.trans_le (le_mul_of_one_le_right hE.le (one_le_zpow₀ one_le_two h3)))
    _ = (2 : ℝ) ^ (fmt.emax + 1 + (fmt.emax + 1) + 1) := by
      generalize fmt.emax + 1 = k
      rw [zpow_add_one₀ two_ne_zero, zpow_add₀ two_ne_zero]
      ring
    _ ≤ (2 : ℝ) ^ (1023 + fmt.adj) := zpow_le_zpow_right₀ one_le_two h4

/-- A nonzero number within reach that a magnitude describes. -/
theorem FpFormat.Reaches.roundable {fmt : FpFormat} {v : ℝ} (h : fmt.Reaches v) {m : Magnitude} (hd : m.Describes |v|)
    (h0 : m.sig ≠ 0) (hl : m.sticky = true → 2 ^ 53 ≤ m.sig) : m.Roundable fmt := by
  obtain ⟨hlo, hhi⟩ := hd.exponent_bounds h0
  have h1 : -1022 - fmt.adj < m.exponent + 1 := (zpow_lt_zpow_iff_right₀ one_lt_two).mp (h.1.trans_lt hhi)
  have h2 : m.exponent < 1023 + fmt.adj := (zpow_lt_zpow_iff_right₀ one_lt_two).mp (hlo.trans_lt h.2)
  exact ⟨h0, hl, by omega, by omega⟩

end Sys2Proof.Machine
end

section
/-!
PROOFS, family 47_fp_model.md.  Sums, products and multiply-adds are rounded once (O49).
-/
namespace Sys2Proof.Machine

/-! ## Operations that are not invalid -/

theorem vxsnanOf_eq_zero {xs : List DWord} (h : xs.any isNaN = false) : vxsnanOf xs = 0 := by
  have hs : xs.any isSNaN = false := by
    rw [List.any_eq_false] at h ⊢
    exact fun x hx => by simp [isSNaN_of_not_isNaN (Bool.eq_false_iff.mpr (h x hx))]
  rw [vxsnanOf, hs]
  rfl

section
variable {a b c y : DWord}

theorem vxSum_eq_zero (hn : [a, b].any isNaN = false) (h : (isInf a && isInf y && fpSign a != fpSign y) = false) :
    vxSum a b y = 0 := by
  rw [vxSum, vxsnanOf_eq_zero hn, h]; rfl

theorem vxProduct_eq_zero (hn : [a, c].any isNaN = false) (h : isInfTimesZero a c = false) : vxProduct a c = 0 := by
  rw [vxProduct, vxsnanOf_eq_zero hn, h]; rfl

theorem vxQuotient_eq_zero (hn : [a, b].any isNaN = false) (hi : (isInf a && isInf b) = false)
    (hz : (isZero a && isZero b) = false) : vxQuotient a b = 0 := by
  rw [vxQuotient, vxsnanOf_eq_zero hn, hi, hz]; rfl

theorem vxFused_eq_zero (hn : [a, b, c].any isNaN = false) (ht : isInfTimesZero a c = false)
    (h : (isInfProduct a c && isInf b && fpSign y != (fpSign a != fpSign c)) = false) : vxFused a b c y = 0 := by
  rw [vxFused, vxsnanOf_eq_zero hn, ht, h]; rfl

theorem vxRoot_eq_zero (hn : [b].any isNaN = false) (h : isNegative b = false) : vxRoot b = 0 := by
  rw [vxRoot, vxsnanOf_eq_zero hn, h]; rfl

theorem isInfTimesZero_of_finite (ha : isInf a = false) (hc : isInf c = false) : isInfTimesZero a c = false := by
  rw [isInfTimesZero, ha, hc, Bool.false_and, Bool.and_false]; rfl

theorem isInfProduct_of_finite (ha : isInf a = false) (hc : isInf c = false) : isInfProduct a c = false := by
  rw [isInfProduct, ha, hc, Bool.or_false, Bool.and_false]

end

theorem any_isNaN_eq_false {xs : List DWord} (h : ∀ x ∈ xs, isNaN x = false) : xs.any isNaN = false :=
  List.any_eq_false.mpr fun x hx => by simp [h x hx]

/-! ## Sums, products and multiply-adds over the real numbers (O49) -/

section
variable {dp sp : Res} {s : State} {frt : RegNum} {rc neg : Bool} {vx : Word} {xs : List DWord} {result : ExactResult}

/-- A nonzero exact number is rounded. -/
theorem Arithmetic.roundedDyadic (h : Arithmetic dp sp s frt rc neg vx xs result) (hvx : vx = 0) (hn : xs.any isNaN = false)
    {x : Dyadic} {sg : Bool} (hr : result = .ofDyadic x sg) {v : ℝ} (hv : (x.toRat : ℝ) = v) (h0 : v ≠ 0)
    (reach : ∀ fmt : FpFormat, fmt.Standard → (fmt.p = 24 → xs.all repSingle = true) → fmt.Reaches v) :
    DeliversRounded .dp neg dp s frt rc v ∧ (xs.all repSingle = true → DeliversRounded .sp neg sp s frt rc v) := by
  have hp : (0 : ℝ) < 2 ^ x.exp := by positivity
  have hcast : (x.num : ℝ) * 2 ^ x.exp = v := by rw [← hv, Dyadic.toRat]; push_cast; rfl
  have hnum : x.num ≠ 0 := fun hz => h0 (by rw [← hcast, hz]; simp)
  have hd : x.magnitude.Describes |v| := by rw [← hv]; exact x.magnitude_describes
  rw [ExactResult.ofDyadic, if_neg hnum] at hr
  refine h.rounded hvx hn hr hd ?_ fun fmt hf hx =>
    (reach fmt hf hx).roundable hd (Int.natAbs_ne_zero.mpr hnum) (fun hs => by cases hs)
  have hneg := mul_lt_mul_iff_left₀ hp (b := (x.num : ℝ)) (c := 0)
  rw [zero_mul, Int.cast_lt_zero, hcast] at hneg
  rw [decide_eq_true_iff, hneg]

end

theorem fpExp_of_finite {x : DWord} (h : isNaN x = false ∧ isInf x = false) : fpExp x ≠ 2047 := (finite_iff x).mp h

/-- The precision takes each operand of a list that it takes. -/
theorem FpFormat.takes_of_all {fmt : FpFormat} {xs : List DWord} (h : fmt.p = 24 → xs.all repSingle = true) {x : DWord}
    (hx : x ∈ xs) : fmt.Takes x := fun hp => List.all_eq_true.mp (h hp) x hx

theorem fpRat_fpAddend (sub : Bool) (b : DWord) : fpRat (fpAddend sub b) = if sub then -fpRat b else fpRat b := by
  cases sub
  · rfl
  · exact fpRat_fpNegated b

theorem finite_fpAddend (sub : Bool) {b : DWord} (h : isNaN b = false ∧ isInf b = false) :
    isNaN (fpAddend sub b) = false ∧ isInf (fpAddend sub b) = false := by
  cases sub
  · exact h
  · exact ⟨(isNaN_fpNegated b).trans h.1, (isInf_fpNegated b).trans h.2⟩

theorem spans_fpAddend {fmt : FpFormat} (sub : Bool) {b : DWord} (h : fmt.Spans (fpRat b)) :
    fmt.Spans (fpRat (fpAddend sub b)) := by
  rw [fpRat_fpAddend]
  cases sub
  · exact h
  · rw [if_pos rfl, Rat.cast_neg]
    exact h.neg

section
variable {dp sp : Res} {s : State} {frt : RegNum} {rc neg : Bool} {a b c : DWord} {f : Word} (sub : Bool)
  (ha : isNaN a = false ∧ isInf a = false)
include ha

/-- A nonzero sum of finite operands is rounded. -/
theorem Arithmetic.roundedSum (hb : isNaN b = false ∧ isInf b = false)
    (h : Arithmetic dp sp s frt rc neg (vxSum a b (fpAddend sub b)) [a, b] (fpSum a (fpAddend sub b) f)) {v : ℝ}
    (hv : (fpRat a : ℝ) + fpRat (fpAddend sub b) = v) (h0 : v ≠ 0) :
    DeliversRounded .dp neg dp s frt rc v ∧ ([a, b].all repSingle = true → DeliversRounded .sp neg sp s frt rc v) := by
  obtain ⟨-, hy⟩ := finite_fpAddend sub hb
  have hn : [a, b].any isNaN = false := any_isNaN_eq_false (by simp [ha.1, hb.1])
  refine h.roundedDyadic (vxSum_eq_zero hn (by rw [ha.2, Bool.false_and, Bool.false_and])) hn (x := (fpVal a).add (fpVal (fpAddend sub b)))
    (by rw [fpSum, ha.2, hy]; rfl) ?_ h0 fun fmt hf hx => ?_
  · rw [Dyadic.toRat_add, ← hv]
    push_cast
    rfl
  · have hsa := hf.spans (FpFormat.takes_of_all hx (by simp : a ∈ [a, b])) (fpExp_of_finite ha)
    have hsb := spans_fpAddend sub (hf.spans (FpFormat.takes_of_all hx (by simp : b ∈ [a, b])) (fpExp_of_finite hb))
    rw [← mul_one (fpRat a : ℝ)] at hv
    rw [← hv] at h0 ⊢
    exact hf.reaches_fused hsa hf.spans_one hsb h0

/-- A nonzero product of finite operands is rounded. -/
theorem Arithmetic.roundedProduct (hc : isNaN c = false ∧ isInf c = false)
    (h : Arithmetic dp sp s frt rc neg (vxProduct a c) [a, c] (fpProduct a c)) (h0 : (fpRat a : ℝ) * fpRat c ≠ 0) :
    DeliversRounded .dp neg dp s frt rc (fpRat a * fpRat c) ∧
      ([a, c].all repSingle = true → DeliversRounded .sp neg sp s frt rc (fpRat a * fpRat c)) := by
  have hn : [a, c].any isNaN = false := any_isNaN_eq_false (by simp [ha.1, hc.1])
  refine h.roundedDyadic (vxProduct_eq_zero hn (isInfTimesZero_of_finite ha.2 hc.2)) hn (x := (fpVal a).mul (fpVal c))
    (by rw [fpProduct, ha.2, hc.2]; rfl) ?_ h0 fun fmt hf hx => ?_
  · rw [Dyadic.toRat_mul]
    push_cast
    rfl
  · have hsa := hf.spans (FpFormat.takes_of_all hx (by simp : a ∈ [a, c])) (fpExp_of_finite ha)
    have hsc := hf.spans (FpFormat.takes_of_all hx (by simp : c ∈ [a, c])) (fpExp_of_finite hc)
    rw [← add_zero ((fpRat a : ℝ) * fpRat c)] at h0 ⊢
    exact hf.reaches_fused hsa hsc fmt.spans_zero h0

/-- A nonzero multiply-add of finite operands is rounded, the product not being rounded. -/
theorem Arithmetic.roundedFused (hb : isNaN b = false ∧ isInf b = false) (hc : isNaN c = false ∧ isInf c = false)
    (h : Arithmetic dp sp s frt rc neg (vxFused a b c (fpAddend sub b)) [a, b, c] (fpFused a c (fpAddend sub b) f)) {v : ℝ}
    (hv : (fpRat a : ℝ) * fpRat c + fpRat (fpAddend sub b) = v) (h0 : v ≠ 0) :
    DeliversRounded .dp neg dp s frt rc v ∧ ([a, b, c].all repSingle = true → DeliversRounded .sp neg sp s frt rc v) := by
  obtain ⟨-, hy⟩ := finite_fpAddend sub hb
  have hn : [a, b, c].any isNaN = false := any_isNaN_eq_false (by simp [ha.1, hb.1, hc.1])
  have hp := isInfProduct_of_finite ha.2 hc.2
  refine h.roundedDyadic (vxFused_eq_zero hn (isInfTimesZero_of_finite ha.2 hc.2) (by rw [hp, Bool.false_and, Bool.false_and])) hn
    (x := ((fpVal a).mul (fpVal c)).add (fpVal (fpAddend sub b))) (by rw [fpFused, hp, hy]; rfl) ?_ h0 fun fmt hf hx => ?_
  · rw [Dyadic.toRat_add, Dyadic.toRat_mul, ← hv]
    push_cast
    rfl
  · have hsa := hf.spans (FpFormat.takes_of_all hx (by simp : a ∈ [a, b, c])) (fpExp_of_finite ha)
    have hsb := spans_fpAddend sub (hf.spans (FpFormat.takes_of_all hx (by simp : b ∈ [a, b, c])) (fpExp_of_finite hb))
    have hsc := hf.spans (FpFormat.takes_of_all hx (by simp : c ∈ [a, b, c])) (fpExp_of_finite hc)
    rw [← hv] at h0 ⊢
    exact hf.reaches_fused hsa hsc hsb h0

end

/-- Settles O49: the exact results are dyadic numbers within reach of the exponent adjustment. -/
theorem roundedSumsAndProducts : Obligations.RoundedSumsAndProducts := by
  intro s frt fra frb frc rc hs a b c x y z finite rounded ha
  have plus : ∀ v : ℝ, v + fpRat (fpAddend false b) = v + y := fun _ => rfl
  have minus : ∀ v : ℝ, v + fpRat (fpAddend true b) = v - y := fun v => by
    rw [fpRat_fpAddend, if_pos rfl, Rat.cast_neg, sub_eq_add_neg]
  refine ⟨fun hb => ⟨?_, ?_⟩, fun hc => ?_, fun hb hc => ⟨?_, ?_, ?_, ?_⟩⟩
  · exact Arithmetic.roundedSum false ha hb (fadd_arithmetic hs frt fra frb rc) (plus x)
  · exact Arithmetic.roundedSum true ha hb (fsub_arithmetic hs frt fra frb rc) (minus x)
  · exact Arithmetic.roundedProduct ha hc (fmul_arithmetic hs frt fra frc rc)
  · exact Arithmetic.roundedFused false ha hb hc (fmadd_arithmetic hs frt fra frb frc rc) (plus _)
  · exact Arithmetic.roundedFused true ha hb hc (fmsub_arithmetic hs frt fra frb frc rc) (minus _)
  · exact Arithmetic.roundedFused false ha hb hc (fnmadd_arithmetic hs frt fra frb frc rc) (plus _)
  · exact Arithmetic.roundedFused true ha hb hc (fnmsub_arithmetic hs frt fra frb frc rc) (minus _)

end Sys2Proof.Machine
end

section
/-!
PROOFS, family 47_fp_model.md.  Quotients and square roots are rounded once (O50).
-/
namespace Sys2Proof.Machine

/-! ## Quotients and square roots over the real numbers (O50) -/

/-- The integer square root, from any start below it and within `2^k` of it. -/
theorem isqrtBits_spec (n k r : Nat) (hr : r * r ≤ n) (hn : n < (r + 2 ^ k) * (r + 2 ^ k)) :
    isqrtBits n k r * isqrtBits n k r ≤ n ∧ n < (isqrtBits n k r + 1) * (isqrtBits n k r + 1) := by
  induction k generalizing r with
  | zero => exact ⟨hr, hn⟩
  | succ k ih =>
    rw [isqrtBits]
    split
    · rename_i h
      refine ih _ h ?_
      rwa [add_assoc, ← two_mul, ← pow_succ']
    · rename_i h
      exact ih _ hr (not_le.mp h)

section
variable {b : DWord} (hb : fpSig b ≠ 0)
include hb

/-- The root's magnitude: its square over the same even power of 2, and the bounds of the integer square root. -/
theorem fpRoot_spec : ∃ n : ℕ, (fpSig b : ℝ) * 2 ^ fpWeight b = n * ((2 : ℝ) ^ (fpRoot b).exp) ^ 2 ∧ 2 ^ 128 ≤ n ∧
    (fpRoot b).sig * (fpRoot b).sig ≤ n ∧ n < ((fpRoot b).sig + 1) * ((fpRoot b).sig + 1) ∧
    ((fpRoot b).sticky = true ↔ (fpRoot b).sig * (fpRoot b).sig ≠ n) := by
  have hpos : 1 ≤ fpSig b := Nat.one_le_iff_ne_zero.mpr hb
  have hlt := fpSig_lt b
  have zero : ∀ n, 0 * 0 ≤ n := fun n => by omega
  have root : ∀ k, 128 ≤ k → k ≤ 129 → fpSig b * 2 ^ k < (0 + 2 ^ 92) * (0 + 2 ^ 92) := fun k _ h =>
    calc fpSig b * 2 ^ k < 2 ^ 53 * 2 ^ k := Nat.mul_lt_mul_of_pos_right hlt (by positivity)
      _ ≤ 2 ^ 53 * 2 ^ 129 := Nat.mul_le_mul_left _ (Nat.pow_le_pow_right (by decide) h)
      _ ≤ (0 + 2 ^ 92) * (0 + 2 ^ 92) := by decide
  have low : ∀ k, 128 ≤ k → 2 ^ 128 ≤ fpSig b * 2 ^ k := fun k h =>
    (Nat.pow_le_pow_right (by decide) h).trans (Nat.le_mul_of_pos_left _ hpos)
  have value : ∀ (k : ℕ) (e : ℤ), fpWeight b = k + e * 2 →
      (fpSig b : ℝ) * 2 ^ fpWeight b = (fpSig b * 2 ^ k : ℕ) * ((2 : ℝ) ^ e) ^ 2 := fun k e h => by
    rw [h, ← zpow_natCast ((2 : ℝ) ^ e), ← zpow_mul]
    exact (mul_two_pow_zpow _ _ _).symm
  cases hodd : (fpWeight b % 2 != 0)
  · obtain ⟨h1, h2⟩ := isqrtBits_spec (fpSig b * 2 ^ 128) 92 0 (zero _) (root 128 (by decide) (by decide))
    simp only [fpRoot, hodd, Bool.false_eq_true, if_false]
    refine ⟨fpSig b * 2 ^ 128, value 128 _ ?_, low 128 (by decide), h1, h2, bne_iff_ne⟩
    rw [bne_eq_false_iff_eq] at hodd
    omega
  · obtain ⟨h1, h2⟩ := isqrtBits_spec (fpSig b * 2 ^ 129) 92 0 (zero _) (root 129 (by decide) (by decide))
    simp only [fpRoot, hodd, if_true]
    refine ⟨fpSig b * 2 ^ 129, value 129 _ ?_, low 129 (by decide), h1, h2, bne_iff_ne⟩
    rw [bne_iff_ne] at hodd
    omega

/-- The root that a square root rounds describes the exact one, and has at least 64 bits. -/
theorem fpRoot_describes : (fpRoot b).Describes √(|(fpRat b : ℝ)|) ∧ 2 ^ 63 ≤ (fpRoot b).sig := by
  obtain ⟨n, hv, hn, hlo, hhi, hst⟩ := fpRoot_spec hb
  have hu : (0 : ℝ) < 2 ^ (fpRoot b).exp := by positivity
  have hroot : √(|(fpRat b : ℝ)|) = √(n : ℝ) * 2 ^ (fpRoot b).exp := by
    rw [abs_fpRat, hv, Real.sqrt_mul (Nat.cast_nonneg n), Real.sqrt_sq hu.le]
  constructor
  · rw [hroot, Magnitude.Describes, mul_lt_mul_iff_left₀ hu, mul_lt_mul_iff_left₀ hu, mul_left_inj' hu.ne']
    split
    · rename_i h
      have hne := hst.mp h
      constructor
      · rw [Real.lt_sqrt (Nat.cast_nonneg _), sq]
        exact_mod_cast lt_of_le_of_ne hlo hne
      · rw [Real.sqrt_lt' (by positivity), sq]
        exact_mod_cast hhi
    · rename_i h
      have heq : (fpRoot b).sig * (fpRoot b).sig = n := by
        by_contra hne
        exact h (hst.mpr hne)
      rw [← heq, Nat.cast_mul, Real.sqrt_mul_self (Nat.cast_nonneg _)]
  · by_contra hlt
    have : ((fpRoot b).sig + 1) * ((fpRoot b).sig + 1) ≤ 2 ^ 63 * 2 ^ 63 := Nat.mul_le_mul (by omega) (by omega)
    have : (2 : ℕ) ^ 63 * 2 ^ 63 ≤ 2 ^ 128 := by decide
    omega

end

/-- The quotient that a divide rounds has at least 53 bits. -/
theorem fpQuotient_long {a b : DWord} (ha : fpSig a ≠ 0) (hb : fpSig b ≠ 0) : 2 ^ 53 ≤ (fpQuotient a b).sig := by
  rw [fpQuotient, Nat.le_div_iff_mul_le (Nat.pos_of_ne_zero hb)]
  calc 2 ^ 53 * fpSig b ≤ 2 ^ 53 * 2 ^ 53 := Nat.mul_le_mul_left _ (fpSig_lt b).le
    _ ≤ 2 ^ 128 := by decide
    _ ≤ fpSig a * 2 ^ 128 := Nat.le_mul_of_pos_left _ (Nat.pos_of_ne_zero ha)

section
variable {fmt : FpFormat} (hf : fmt.Standard) {x y : ℝ} (hx : fmt.Spans x) (hx0 : x ≠ 0)
include hf hx hx0

/-- A quotient of nonzero operands is within reach. -/
theorem FpFormat.Standard.reaches_quotient (hy : fmt.Spans y) (hy0 : y ≠ 0) : fmt.Reaches (x / y) := by
  have hk : -1022 - fmt.adj ≤ fmt.emin - (fmt.p - 1) - (fmt.emax + 1) ∧
      fmt.emax + 1 - (fmt.emin - (fmt.p - 1)) ≤ 1023 + fmt.adj := by
    rcases hf.known with rfl | rfl <;> decide
  have hyp : 0 < |y| := abs_pos.mpr hy0
  have hxp : 0 < |x| := abs_pos.mpr hx0
  rw [FpFormat.Reaches, abs_div]
  constructor
  · calc (2 : ℝ) ^ (-1022 - fmt.adj) ≤ 2 ^ (fmt.emin - (fmt.p - 1) - (fmt.emax + 1)) := zpow_le_zpow_right₀ one_le_two hk.1
      _ = 2 ^ (fmt.emin - (fmt.p - 1)) / (2 : ℝ) ^ (fmt.emax + 1) := zpow_sub₀ two_ne_zero _ _
      _ ≤ |x| / |y| := div_le_div₀ hxp.le (hx.multiple.le_abs hx0) hyp hy.bound.le
  · calc |x| / |y| < (2 : ℝ) ^ (fmt.emax + 1) / 2 ^ (fmt.emin - (fmt.p - 1)) :=
        div_lt_div₀ hx.bound (hy.multiple.le_abs hy0) (by positivity) (by positivity)
      _ = (2 : ℝ) ^ (fmt.emax + 1 - (fmt.emin - (fmt.p - 1))) := (zpow_sub₀ two_ne_zero _ _).symm
      _ ≤ 2 ^ (1023 + fmt.adj) := zpow_le_zpow_right₀ one_le_two hk.2

/-- A square root of a nonzero operand is within reach. -/
theorem FpFormat.Standard.reaches_root : fmt.Reaches √|x| := by
  have hk : (-1022 - fmt.adj) * 2 ≤ fmt.emin - (fmt.p - 1) ∧ fmt.emax + 1 ≤ (1023 + fmt.adj) * 2 := by
    rcases hf.known with rfl | rfl <;> decide
  have sq : ∀ k : ℤ, ((2 : ℝ) ^ k) ^ 2 = 2 ^ (k * 2) := fun k => by rw [← zpow_natCast, ← zpow_mul]; rfl
  rw [FpFormat.Reaches, abs_of_nonneg (Real.sqrt_nonneg _), Real.le_sqrt' (by positivity), Real.sqrt_lt' (by positivity), sq, sq]
  exact ⟨(zpow_le_zpow_right₀ one_le_two hk.1).trans (hx.multiple.le_abs hx0),
    hx.bound.trans_le (zpow_le_zpow_right₀ one_le_two hk.2)⟩

end

/-- The sign of a quotient. -/
theorem quotient_neg_iff {a b : DWord} (ha : isZero a = false) (hb : isZero b = false) :
    (fpSign a != fpSign b) = true ↔ (fpRat a : ℝ) / fpRat b < 0 := by
  have hna : (fpRat a : ℝ) < 0 ↔ fpSign a = true := by rw [Rat.cast_lt_zero]; exact fpRat_neg_iff ha
  have hnb : (fpRat b : ℝ) < 0 ↔ fpSign b = true := by rw [Rat.cast_lt_zero]; exact fpRat_neg_iff hb
  have h0 : ∀ {x : DWord}, isZero x = false → (fpRat x : ℝ) ≠ 0 := fun h => by
    rw [Rat.cast_ne_zero, Ne, fpRat_eq_zero_iff, h]
    decide
  have hpa : 0 < (fpRat a : ℝ) ↔ ¬ fpSign a = true := by rw [← hna, not_lt, (h0 ha).symm.le_iff_lt]
  have hpb : 0 < (fpRat b : ℝ) ↔ ¬ fpSign b = true := by rw [← hnb, not_lt, (h0 hb).symm.le_iff_lt]
  rw [div_neg_iff, hna, hnb, hpa, hpb]
  cases fpSign a <;> cases fpSign b <;> simp

/-- Settles O50: the magnitudes of quotients and roots describe the exact reals, within reach of the exponent adjustment. -/
theorem roundedQuotientsAndRoots : Obligations.RoundedQuotientsAndRoots := by
  intro s frt fra frb rc hs a b rounded hb
  obtain ⟨fb, zb⟩ := (isNumber_iff b).mp hb
  have sig : ∀ {x : DWord}, isZero x = false → fpSig x ≠ 0 := fun h h0 => by simp [(isZero_iff _).mpr h0] at h
  have nonzero : ∀ {x : DWord}, isZero x = false → (fpRat x : ℝ) ≠ 0 := fun h => by
    rw [Rat.cast_ne_zero, Ne, fpRat_eq_zero_iff, h]
    decide
  refine ⟨fun ha => ?_, fun hg hsign => ?_⟩
  · obtain ⟨fa, za⟩ := (isNumber_iff a).mp ha
    have hn : [a, b].any isNaN = false := any_isNaN_eq_false (by simp [fa.1, fb.1])
    have hd := fpQuotient_describes a b (sig zb)
    have long := fpQuotient_long (sig za) (sig zb)
    refine (fdiv_arithmetic hs frt fra frb rc).rounded
      (vxQuotient_eq_zero hn (by rw [fa.2, Bool.false_and]) (by rw [za, Bool.false_and])) hn
      (by rw [fpRatio, fa.2, fb.2, zb, za]; rfl) hd (quotient_neg_iff za zb) fun fmt hf hx => ?_
    have hsa := hf.spans (FpFormat.takes_of_all hx (by simp : a ∈ [a, b])) (fpExp_of_finite fa)
    have hsb := hf.spans (FpFormat.takes_of_all hx (by simp : b ∈ [a, b])) (fpExp_of_finite fb)
    exact (hf.reaches_quotient hsa (nonzero za) hsb (nonzero zb)).roundable hd
      (Nat.pos_of_ne_zero (by omega)).ne' fun _ => long
  · have hn : [b].any isNaN = false := any_isNaN_eq_false (by simp [fb.1])
    obtain ⟨hd, long⟩ := fpRoot_describes (sig zb)
    have habs : |(fpRat b : ℝ)| = fpRat b := abs_of_nonneg (not_lt.mp fun h => by
      rw [Rat.cast_lt_zero, fpRat_neg_iff zb, hsign] at h
      cases h)
    have hroot : |√(fpRat b : ℝ)| = √|(fpRat b : ℝ)| := by rw [abs_of_nonneg (Real.sqrt_nonneg _), habs]
    rw [← hroot] at hd
    refine (fsqrt_arithmetic hs frt frb rc hg).rounded (vxRoot_eq_zero hn (by rw [isNegative, hsign]; rfl)) hn
      (by rw [fpRooted, zb, fb.2]; rfl) hd
      (iff_of_false (by decide) (not_lt.mpr (Real.sqrt_nonneg _))) fun fmt hf hx => ?_
    have hsb := hf.spans (FpFormat.takes_of_all hx (by simp : b ∈ [b])) (fpExp_of_finite fb)
    have hreach := hf.reaches_root hsb (nonzero zb)
    rw [habs] at hreach
    exact hreach.roundable hd (by omega) fun _ => by omega

end Sys2Proof.Machine
end

section
/-!
PROOFS, family 47_fp_model.md.  Exact results are delivered exactly (O45, O46, O47).
-/
namespace Sys2Proof.Machine

/-! ## Exact results (47_fp_model.md R523, R555) -/

/-- The exponent of a nonzero operand that the precision takes, against that of its pattern. -/
theorem exponent_of_bounds {x : DWord} {e : ℤ} (hlo : (2 : ℝ) ^ e ≤ |(fpRat x : ℝ)|) (hhi : |(fpRat x : ℝ)| < (2 : ℝ) ^ (e + 1)) :
    if fpExp x = 0 then e ≤ -1022 else e = fpExp x - 1023 := by
  have h1 : e < fpExponent x + 1 := (zpow_lt_zpow_iff_right₀ one_lt_two).mp (hlo.trans_lt (abs_fpRat_lt x))
  unfold fpExponent at h1
  split
  · omega
  · rename_i h0
    have h2 : (fpExp x : ℤ) - 1023 < e + 1 := (zpow_lt_zpow_iff_right₀ one_lt_two).mp ((le_abs_fpRat h0).trans_lt hhi)
    omega

section
variable {fmt : FpFormat} {f : Word} {o : RoundedOutcome} {x : DWord}

/-- The outcome that delivers `x` exactly. -/
def RoundedOutcome.exactly (fmt : FpFormat) (x : DWord) : RoundedOutcome := ⟨x, 0, some false, false, fpClass fmt x, false⟩

/-- A rounding of nothing but whole units delivers the number. -/
theorem RoundedOutcome.RoundsTo.eq_exactly {m : ℕ} {q : ℤ} {sg : Bool} (h : o.RoundsTo fmt sg ⟨m, false, false⟩ q 0 0)
    (hc : o.caused = false) (hs : sg = fpSign x) (hv : |(fpRat x : ℝ)| = m * (2 : ℝ) ^ q) :
    o = RoundedOutcome.exactly fmt x := by
  obtain ⟨⟨-, -, hsign, hmag⟩, hbits, hfr, hfi, hcl⟩ := h
  have hval : o.value = x := by
    refine eq_of_magnitude (hsign.trans hs) ?_
    rw [add_zero] at hmag
    rw [hmag, ← Rat.cast_inj (α := ℝ)]
    push_cast
    exact hv.symm
  rw [if_pos rfl, hval] at hcl
  obtain ⟨value, bits, fr, fi, fprf, caused⟩ := o
  simp only at hval hbits hfr hfi hcl hc
  rw [hval, hbits, hfr, hfi, hcl, hc]
  rfl

/-- A nonzero number that the precision takes is its own rounding, unless it is Tiny and Underflow is enabled. -/
theorem RoundedAs.eq_exactly (hf : fmt.Standard) (h : RoundedAs fmt (fpRat x) f o) (hx : isNumber x = true) (ht : fmt.Takes x)
    (hn : fmt.emin ≤ (fpExp x : ℤ) - 1023 ∨ bitAt f 26 = false) : o = RoundedOutcome.exactly fmt x := by
  obtain ⟨fx, zx⟩ := (isNumber_iff x).mp hx
  obtain ⟨⟨m, hm⟩, hb⟩ := hf.operand ht (fpExp_of_finite fx)
  obtain ⟨sg, e, r, hsg, hlo, hhi, hr, denormal, -, -, -, inRange⟩ := h
  have hemax : e < fmt.emax + 1 := (zpow_lt_zpow_iff_right₀ one_lt_two).mp (hlo.trans_lt hb)
  have hexp := exponent_of_bounds hlo hhi
  have hemin := hf.emin_ge
  have tiny : e < fmt.emin → bitAt f 26 = false := fun he => hn.resolve_left fun hle => by
    split at hexp <;> omega
  have hunit : fmt.unit f e = max ((fpExp x : ℤ) - 1023) fmt.emin - (fmt.p - 1) := by
    rcases lt_or_ge e fmt.emin with he | he
    · rw [FpFormat.unit_denormal he (tiny he)]
      split at hexp <;> omega
    · rw [FpFormat.unit_of_emin_le he]
      split at hexp <;> omega
  have hsign : sg = fpSign x := by rw [Bool.eq_iff_iff, hsg, Rat.cast_lt_zero]; exact fpRat_neg_iff zx
  rw [← hunit] at hm
  have hrm : r = ⟨m, false, false⟩ := RoundsAt.of_multiple hr hm
  subst hrm
  rcases lt_or_ge e fmt.emin with he | he
  · obtain ⟨hround, hc⟩ := denormal he (tiny he)
    exact RoundedOutcome.RoundsTo.eq_exactly hround hc hsign hm
  · have hno : ¬ (fmt.emin ≤ e ∧ (2 : ℝ) ^ (fmt.emax + 1) ≤ m * (2 : ℝ) ^ fmt.unit f e) := fun h => by
      rw [← hm] at h
      exact absurd hb (not_lt.mpr h.2)
    obtain ⟨hround, hc⟩ := inRange he hno
    exact RoundedOutcome.RoundsTo.eq_exactly hround hc hsign hm

variable {neg : Bool} {res : Res} {s : State} {frt : RegNum} {rc : Bool}

/-- An exact result that the precision takes is delivered exactly. -/
theorem DeliversRounded.exactly (h : DeliversRounded fmt neg res s frt rc (fpRat x)) (hf : fmt.Standard)
    (hs : FpscrSummaries s.fpscr) (hx : isNumber x = true) (ht : fmt.Takes x)
    (hn : fmt.emin ≤ (fpExp x : ℤ) - 1023 ∨ bitAt s.fpscr 26 = false) :
    DeliversExactly fmt res s frt rc (fpAddend neg x) := by
  obtain ⟨t, o, hres, ho, hval, hsingle, hset, hfr, hfi, hcl, hframe⟩ := h
  obtain rfl := ho.eq_exactly hf hx ht hn
  refine ⟨t, hres, hval, hsingle, hfr _ rfl, hfi, hcl.trans ?_, hset.sameOutside hs, hframe⟩
  cases neg
  · rfl
  · exact (fpClass_fpNegated fmt ((isNumber_iff x).mp hx).1.1).symm

end

/-- A normalized number of the precision. -/
theorem NormalIn.spec {fmt : FpFormat} (hf : fmt.Standard) {x : DWord} (h : NormalIn fmt x) :
    isNumber x = true ∧ fmt.Takes x ∧ fmt.emin ≤ (fpExp x : ℤ) - 1023 := by
  obtain ⟨hlo, hhi, ht⟩ := h
  have hr : 1 ≤ fpExp x ∧ fpExp x ≤ 2046 ∧ fmt.emin ≤ (fpExp x : ℤ) - 1023 := by
    rcases hf.known with rfl | rfl
    · have h1 : FpFormat.dp.minExp = 1 ∧ fpExp FpFormat.dp.maxFin = 2046 := by decide
      have h2 : FpFormat.dp.emin = -1022 := rfl
      omega
    · have h1 : FpFormat.sp.minExp = 897 ∧ fpExp FpFormat.sp.maxFin = 1150 := by decide
      have h2 : FpFormat.sp.emin = -126 := rfl
      omega
  obtain ⟨h1, h2, h3⟩ := hr
  refine ⟨(isNumber_iff x).mpr ⟨(finite_iff x).mpr (by omega), ?_⟩, ht, h3⟩
  have h0 : (fpExp x == 0) = false := beq_eq_false_iff_ne.mpr (by omega)
  rw [isZero, h0, Bool.false_and]

theorem fpRat_ne_zero {x : DWord} (h : isNumber x = true) : (fpRat x : ℝ) ≠ 0 := by
  rw [Rat.cast_ne_zero, Ne, fpRat_eq_zero_iff, ((isNumber_iff x).mp h).2]
  decide

/-- Where an operation rounds its nonzero exact result, it delivers one that is a normalized number exactly. -/
theorem exactly_of_rounded {dp sp : Res} {s : State} {frt : RegNum} {rc neg : Bool} {xs : List DWord} {v : ℝ} {x : DWord}
    (hs : FpscrSummaries s.fpscr) (hv : (fpRat x : ℝ) = v)
    (h : v ≠ 0 → DeliversRounded .dp neg dp s frt rc v ∧ (xs.all repSingle = true → DeliversRounded .sp neg sp s frt rc v)) :
    (NormalIn .dp x → DeliversExactly .dp dp s frt rc (fpAddend neg x)) ∧
      (NormalIn .sp x → xs.all repSingle = true → DeliversExactly .sp sp s frt rc (fpAddend neg x)) := by
  subst hv
  constructor
  · intro hn
    obtain ⟨hx, ht, he⟩ := hn.spec FpFormat.dp_standard
    exact (h (fpRat_ne_zero hx)).1.exactly FpFormat.dp_standard hs hx ht (.inl he)
  · intro hn hall
    obtain ⟨hx, ht, he⟩ := hn.spec FpFormat.sp_standard
    exact ((h (fpRat_ne_zero hx)).2 hall).exactly FpFormat.sp_standard hs hx ht (.inl he)

/-- The number with its sign inverted. -/
theorem toRat_neg (x : DWord) : Dyadic.toRat ⟨-(fpVal x).num, (fpVal x).exp⟩ = -fpRat x := by
  rw [Dyadic.toRat, fpRat]
  push_cast
  ring

section
variable {x b : DWord} {y : Dyadic} {p : ℚ}

/-- The same number as a sum, a difference or a product, over the real numbers. -/
theorem same_add (h : (fpVal x).same (y.add (fpVal b))) (hy : y.toRat = p) : (fpRat x : ℝ) = p + fpRat b := by
  rw [Dyadic.same_iff, ← fpRat_eq_toRat, Dyadic.toRat_add, hy, ← fpRat_eq_toRat] at h
  rw [h]
  push_cast
  rfl

theorem same_sub (h : (fpVal x).same (y.add ⟨-(fpVal b).num, (fpVal b).exp⟩)) (hy : y.toRat = p) :
    (fpRat x : ℝ) = p - fpRat b := by
  rw [Dyadic.same_iff, ← fpRat_eq_toRat, Dyadic.toRat_add, hy, toRat_neg] at h
  rw [h]
  push_cast
  ring

theorem toRat_mul_eq (a c : DWord) : ((fpVal a).mul (fpVal c)).toRat = fpRat a * fpRat c := Dyadic.toRat_mul _ _

end

/-- Settles O45: the rounded results of O49, of numbers that need no rounding. -/
theorem exactSumsAndProducts : Obligations.ExactSumsAndProducts := by
  intro s frt fra frb rc x hs hf a b na ia nb ib exactly
  obtain ⟨add, mul, -⟩ := roundedSumsAndProducts s frt fra frb frb rc hs ⟨na, ia⟩
  have all : repSingle a = true → repSingle b = true → [a, b].all repSingle = true := fun ha hb => by simp [ha, hb]
  have of : ∀ {y dp sp v}, ((fpVal x).same y → (fpRat x : ℝ) = v) → (v ≠ 0 → DeliversRounded .dp false dp s frt rc v ∧
      ([a, b].all repSingle = true → DeliversRounded .sp false sp s frt rc v)) → exactly y dp sp := fun hv h hsame =>
    (exactly_of_rounded hf (hv hsame) h).imp_right fun h' hn ha hb => h' hn (all ha hb)
  refine ⟨of (fun h => same_add h (fpRat_eq_toRat a).symm) (add ⟨nb, ib⟩).1,
    of (fun h => same_sub h (fpRat_eq_toRat a).symm) (add ⟨nb, ib⟩).2, of (fun h => ?_) (mul ⟨nb, ib⟩)⟩
  rw [Dyadic.same_iff, ← fpRat_eq_toRat, toRat_mul_eq] at h
  rw [h]
  push_cast
  rfl

/-- Settles O46: the rounded results of O49, of numbers that need no rounding. -/
theorem exactMultiplyAdds : Obligations.ExactMultiplyAdds := by
  intro s frt fra frb frc rc x hs hf a b c na ia nb ib nc ic exactly p sum difference
  obtain ⟨-, -, fused⟩ := roundedSumsAndProducts s frt fra frb frc rc hs ⟨na, ia⟩
  obtain ⟨madd, msub, nmadd, nmsub⟩ := fused ⟨nb, ib⟩ ⟨nc, ic⟩
  have all : repSingle a = true → repSingle b = true → repSingle c = true → [a, b, c].all repSingle = true :=
    fun ha hb hc => by simp [ha, hb, hc]
  have of : ∀ {y dp sp v neg}, ((fpVal x).same y → (fpRat x : ℝ) = v) → (v ≠ 0 → DeliversRounded .dp neg dp s frt rc v ∧
      ([a, b, c].all repSingle = true → DeliversRounded .sp neg sp s frt rc v)) → exactly y (fpAddend neg x) dp sp :=
    fun hv h hsame => (exactly_of_rounded hf (hv hsame) h).imp_right fun h' hn ha hb hc => h' hn (all ha hb hc)
  have plus : (fpVal x).same sum → (fpRat x : ℝ) = fpRat a * fpRat c + fpRat b := fun h => by
    have := same_add h (toRat_mul_eq a c)
    push_cast at this
    exact this
  have minus : (fpVal x).same difference → (fpRat x : ℝ) = fpRat a * fpRat c - fpRat b := fun h => by
    have := same_sub h (toRat_mul_eq a c)
    push_cast at this
    exact this
  exact ⟨of plus madd, of minus msub, of plus nmadd, of minus nmsub⟩

/-- Settles O47: the rounded results of O50, of numbers that need no rounding. -/
theorem exactQuotientsAndRoots : Obligations.ExactQuotientsAndRoots := by
  intro s frt fra frb rc x hs hf a b na ia nb ib zb
  have hb : isNumber b = true := (isNumber_iff b).mpr ⟨⟨nb, ib⟩, zb⟩
  have hb0 := fpRat_ne_zero hb
  obtain ⟨divide, root⟩ := roundedQuotientsAndRoots s frt fra frb rc hs hb
  have all : repSingle a = true → repSingle b = true → [a, b].all repSingle = true := fun ha hb => by simp [ha, hb]
  refine ⟨fun h => ?_, fun hg hsx h => ?_⟩
  · rw [Dyadic.same_iff, ← fpRat_eq_toRat, toRat_mul_eq] at h
    have hr : (fpRat a : ℝ) = fpRat x * fpRat b := by rw [h]; push_cast; rfl
    have hv : (fpRat x : ℝ) = fpRat a / fpRat b := (eq_div_iff hb0).mpr hr.symm
    refine (exactly_of_rounded hf hv fun h0 => divide ((isNumber_iff a).mpr ⟨⟨na, ia⟩, ?_⟩)).imp_right fun h' hn ha hb =>
      h' hn (all ha hb)
    rw [← Bool.not_eq_true, ← fpRat_eq_zero_iff]
    exact fun hz => h0 (by rw [hz, Rat.cast_zero, zero_div])
  · rw [Dyadic.same_iff, ← fpRat_eq_toRat, toRat_mul_eq] at h
    have hpos : ∀ {fmt}, NormalIn fmt x → fmt.Standard → 0 ≤ fpRat x := fun hn hstd => not_lt.mp fun hneg => by
      rw [fpRat_neg_iff ((isNumber_iff x).mp (hn.spec hstd).1).2, hsx] at hneg
      cases hneg
    have hsb : fpSign b = false := by
      rw [← Bool.not_eq_true, ← fpRat_neg_iff zb, h]
      exact not_lt.mpr (mul_self_nonneg _)
    have hv : 0 ≤ fpRat x → (fpRat x : ℝ) = √(fpRat b : ℝ) := fun h0 => by
      rw [h, Rat.cast_mul, Real.sqrt_mul_self (Rat.cast_nonneg.mpr h0)]
    constructor
    · intro hn
      exact (exactly_of_rounded (xs := [b]) hf (hv (hpos hn FpFormat.dp_standard)) fun _ => root hg hsb).1 hn
    · intro hn hrep
      exact (exactly_of_rounded (xs := [b]) hf (hv (hpos hn FpFormat.sp_standard)) fun _ => root hg hsb).2 hn (by simp [hrep])

end Sys2Proof.Machine
end

section
/-!
PROOFS, family 47_fp_model.md.  Infinities, zeros and Zero Divide (O48, O51).
-/
namespace Sys2Proof.Machine

/-! ## Infinities and zeros (47_fp_model.md R509, R514, R557 to R559) -/

theorem isNaN_fpInf (sg : Bool) : isNaN (fpInf sg) = false := by simp [isNaN]
theorem isInf_fpInf (sg : Bool) : isInf (fpInf sg) = true := by simp [isInf]
theorem isNaN_fpZero (sg : Bool) : isNaN (fpZero sg) = false := by simp [isNaN]
theorem isZero_fpZero (sg : Bool) : isZero (fpZero sg) = true := by simp [isZero]

theorem ofDyadic_of_zero {x : Dyadic} (h : x.toRat = 0) (sg : Bool) : ExactResult.ofDyadic x sg = .exact (fpZero sg) := by
  have hp : (2 : ℚ) ^ x.exp ≠ 0 := by positivity
  rw [Dyadic.toRat, mul_eq_zero, or_iff_left hp, Int.cast_eq_zero] at h
  exact if_pos h

theorem fpRat_of_isZero {x : DWord} (h : isZero x = true) : fpRat x = 0 := (fpRat_eq_zero_iff x).mpr h

theorem isInf_fpAddend (sub : Bool) (b : DWord) : isInf (fpAddend sub b) = isInf b := by
  cases sub
  · rfl
  · exact isInf_fpNegated b

theorem isNaN_fpAddend (sub : Bool) (b : DWord) : isNaN (fpAddend sub b) = isNaN b := by
  cases sub
  · rfl
  · exact isNaN_fpNegated b

theorem isZero_fpAddend (sub : Bool) (b : DWord) : isZero (fpAddend sub b) = isZero b := by
  cases sub
  · rfl
  · exact isZero_fpNegated b

/-- Both instructions deliver `v` exactly, the single-precision one where single format represents the operands `xs`. -/
def BothExact (dp sp : Res) (s : State) (frt : RegNum) (rc : Bool) (xs : List DWord) (v : DWord) : Prop :=
  DeliversExactly .dp dp s frt rc v ∧ (xs.all repSingle = true → DeliversExactly .sp sp s frt rc v)

section
variable {dp sp : Res} {s : State} {frt : RegNum} {rc neg : Bool} {a b c : DWord} (hf : FpscrSummaries s.fpscr)
include hf

/-- A sum with an infinity, and an exact zero sum; `y` is the second operand as it participates. -/
theorem Arithmetic.exactSum (sub : Bool)
    (h : Arithmetic dp sp s frt rc false (vxSum a b (fpAddend sub b)) [a, b] (fpSum a (fpAddend sub b) s.fpscr)) :
    (isInf a = true → isNaN b = false → (isInf b = true → fpSign (fpAddend sub b) = fpSign a) →
      BothExact dp sp s frt rc [a, b] a) ∧
    (isNaN a = false ∧ isInf a = false → isInf b = true → BothExact dp sp s frt rc [a, b] (fpAddend sub b)) ∧
    (isNaN a = false ∧ isInf a = false → fpAddend sub b = fpNegated a →
      BothExact dp sp s frt rc [a, b] (fpZero (fld s.fpscr 30 2 == 3))) ∧
    (isZero a = true → fpAddend sub b = a → BothExact dp sp s frt rc [a, b] a) := by
  have nan : isNaN a = false → isNaN b = false → [a, b].any isNaN = false := fun ha hb =>
    any_isNaN_eq_false (by simp [ha, hb])
  -- a sum of finite operands that cancels
  have zero : isNaN a = false ∧ isInf a = false → isNaN b = false → isInf b = false →
      fpRat a + fpRat (fpAddend sub b) = 0 →
      BothExact dp sp s frt rc [a, b] (fpZero (zeroSumSign (fpSign a) (fpSign (fpAddend sub b)) s.fpscr)) :=
    fun ha nb ib hz => by
      refine h.exact hf (vxSum_eq_zero (nan ha.1 nb) (by rw [ha.2, Bool.false_and, Bool.false_and])) (nan ha.1 nb) ?_
        (isNaN_fpZero _)
      rw [fpSum, ha.2, isInf_fpAddend, ib]
      exact ofDyadic_of_zero (by rw [Dyadic.toRat_add]; exact hz) _
  refine ⟨fun ha nb hsg => ?_, fun ha hb => ?_, fun ha hy => ?_, fun ha hy => ?_⟩
  · have na := isNaN_of_isInf ha
    refine h.exact hf (vxSum_eq_zero (nan na nb) ?_) (nan na nb) (if_pos ha) na
    rw [isInf_fpAddend]
    cases hb : isInf b
    · rw [Bool.and_false, Bool.false_and]
    · rw [hsg hb, bne_self_eq_false, Bool.and_false]
  · have nb := isNaN_of_isInf hb
    have hy : isInf (fpAddend sub b) = true := (isInf_fpAddend sub b).trans hb
    refine h.exact hf (vxSum_eq_zero (nan ha.1 nb) (by rw [ha.2, Bool.false_and, Bool.false_and])) (nan ha.1 nb) ?_
      ((isNaN_fpAddend sub b).trans nb)
    rw [fpSum, ha.2, hy]
    rfl
  · have nb : isNaN b = false := by rw [← isNaN_fpAddend sub, hy, isNaN_fpNegated, ha.1]
    have ib : isInf b = false := by rw [← isInf_fpAddend sub, hy, isInf_fpNegated, ha.2]
    have hz := zero ha nb ib (by rw [hy, fpRat_fpNegated, add_neg_cancel])
    rwa [hy, fpSign_fpNegated, zeroSumSign, if_neg (by cases fpSign a <;> decide)] at hz
  · have fa := finite_of_isZero ha
    have nb : isNaN b = false := by rw [← isNaN_fpAddend sub, hy, fa.1]
    have ib : isInf b = false := by rw [← isInf_fpAddend sub, hy, fa.2]
    have hz := zero fa nb ib (by rw [hy, fpRat_of_isZero ha, add_zero])
    rwa [hy, zeroSumSign, if_pos rfl, ← eq_fpZero ha] at hz

/-- A product with an infinity or a zero. -/
theorem Arithmetic.exactProduct (h : Arithmetic dp sp s frt rc false (vxProduct a c) [a, c] (fpProduct a c))
    (na : isNaN a = false) (nc : isNaN c = false) (ht : isInfTimesZero a c = false) :
    ((isInf a || isInf c) = true → BothExact dp sp s frt rc [a, c] (fpInf (fpSign a != fpSign c))) ∧
    ((isInf a || isInf c) = false → (isZero a || isZero c) = true →
      BothExact dp sp s frt rc [a, c] (fpZero (fpSign a != fpSign c))) := by
  have hn : [a, c].any isNaN = false := any_isNaN_eq_false (by simp [na, nc])
  refine ⟨fun hi => h.exact hf (vxProduct_eq_zero hn ht) hn (if_pos hi) (isNaN_fpInf _), fun hi hz => ?_⟩
  refine h.exact hf (vxProduct_eq_zero hn ht) hn ?_ (isNaN_fpZero _)
  rw [fpProduct, hi]
  refine ofDyadic_of_zero ?_ _
  rw [toRat_mul_eq, mul_eq_zero, fpRat_eq_zero_iff, fpRat_eq_zero_iff]
  exact Bool.or_eq_true_iff.mp hz

/-- A quotient with an infinity or of a zero. -/
theorem Arithmetic.exactQuotient (h : Arithmetic dp sp s frt rc false (vxQuotient a b) [a, b] (fpRatio a b))
    (na : isNaN a = false) (nb : isNaN b = false) (hi : (isInf a && isInf b) = false) (hz : (isZero a && isZero b) = false) :
    (isInf a = true → BothExact dp sp s frt rc [a, b] (fpInf (fpSign a != fpSign b))) ∧
    (isInf a = false → isInf b = true ∨ isZero b = false ∧ isZero a = true →
      BothExact dp sp s frt rc [a, b] (fpZero (fpSign a != fpSign b))) := by
  have hn : [a, b].any isNaN = false := any_isNaN_eq_false (by simp [na, nb])
  refine ⟨fun ha => h.exact hf (vxQuotient_eq_zero hn hi hz) hn (if_pos ha) (isNaN_fpInf _), fun ha hb => ?_⟩
  refine h.exact hf (vxQuotient_eq_zero hn hi hz) hn ?_ (isNaN_fpZero _)
  rw [fpRatio, ha]
  rcases hb with hb | ⟨hb, hza⟩
  · rw [hb]; rfl
  · cases hib : isInf b
    · rw [hb, hza]; rfl
    · rfl

/-- A square root of a zero or of +infinity. -/
theorem Arithmetic.exactRoot (h : Arithmetic dp sp s frt rc false (vxRoot b) [b] (fpRooted b))
    (hb : isZero b = true ∨ b = fpInf false) : BothExact dp sp s frt rc [b] b := by
  have hc : isNaN b = false ∧ isNegative b = false ∧ (isZero b || isInf b) = true := by
    rcases hb with hb | rfl
    · exact ⟨(finite_of_isZero hb).1, by rw [isNegative, hb, Bool.not_true, Bool.and_false], by rw [hb, Bool.true_or]⟩
    · decide
  obtain ⟨nb, hneg, hr⟩ := hc
  have hn : [b].any isNaN = false := any_isNaN_eq_false (by simp [nb])
  exact h.exact hf (vxRoot_eq_zero hn hneg) hn (if_pos hr) nb

/-- A multiply-add with an infinity, and an exact zero one; `y` is the addend as it participates. -/
theorem Arithmetic.exactFused (sub : Bool)
    (h : Arithmetic dp sp s frt rc neg (vxFused a b c (fpAddend sub b)) [a, b, c] (fpFused a c (fpAddend sub b) s.fpscr)) :
    (isInf a = true ∨ isInf c = true → isNaN a = false → isNaN c = false → isZero a = false → isZero c = false →
      isNaN b = false → (isInf b = true → fpSign (fpAddend sub b) = (fpSign a != fpSign c)) →
      BothExact dp sp s frt rc [a, b, c] (fpAddend neg (fpInf (fpSign a != fpSign c)))) ∧
    (isNaN a = false ∧ isInf a = false → isNaN c = false ∧ isInf c = false → isInf b = true →
      BothExact dp sp s frt rc [a, b, c] (fpAddend neg (fpAddend sub b))) ∧
    (isNaN a = false ∧ isInf a = false → isNaN b = false ∧ isInf b = false → isNaN c = false ∧ isInf c = false →
      fpRat a * fpRat c + fpRat (fpAddend sub b) = 0 →
      BothExact dp sp s frt rc [a, b, c] (fpAddend neg
        (if isZero b = true ∧ fpSign (fpAddend sub b) = (fpSign a != fpSign c) then fpZero (fpSign a != fpSign c)
          else fpZero (fld s.fpscr 30 2 == 3)))) := by
  have nan : isNaN a = false → isNaN b = false → isNaN c = false → [a, b, c].any isNaN = false := fun ha hb hc =>
    any_isNaN_eq_false (by simp [ha, hb, hc])
  refine ⟨fun hac na nc za zc nb hsg => ?_, fun ha hc hb => ?_, fun ha hb hc hz => ?_⟩
  · have ht : isInfTimesZero a c = false := by rw [isInfTimesZero, za, zc, Bool.and_false, Bool.false_and]; rfl
    have hp : isInfProduct a c = true := by
      rw [isInfProduct, na, nc, ht, Bool.or_eq_true_iff.mpr hac]; rfl
    have hn := nan na nb nc
    refine h.exact hf (vxFused_eq_zero hn ht ?_) hn (if_pos hp) (isNaN_fpInf _)
    cases hb : isInf b
    · rw [Bool.and_false, Bool.false_and]
    · rw [hsg hb, bne_self_eq_false, Bool.and_false]
  · have nb := isNaN_of_isInf hb
    have hn := nan ha.1 nb hc.1
    have hp := isInfProduct_of_finite ha.2 hc.2
    have hy : isInf (fpAddend sub b) = true := (isInf_fpAddend sub b).trans hb
    refine h.exact hf (vxFused_eq_zero hn (isInfTimesZero_of_finite ha.2 hc.2)
      (by rw [hp, Bool.false_and, Bool.false_and])) hn ?_ ((isNaN_fpAddend sub b).trans nb)
    rw [fpFused, hp, hy, ← eq_fpInf hy]
    rfl
  · have hn := nan ha.1 hb.1 hc.1
    have hp := isInfProduct_of_finite ha.2 hc.2
    have hsame : (if isZero b = true ∧ fpSign (fpAddend sub b) = (fpSign a != fpSign c) then fpZero (fpSign a != fpSign c)
          else fpZero (fld s.fpscr 30 2 == 3)) =
        fpZero (if (isZero a || isZero c) && isZero (fpAddend sub b) && (fpSign a != fpSign c) == fpSign (fpAddend sub b)
          then fpSign a != fpSign c else fpRn s.fpscr == 3) := by
      rw [isZero_fpAddend]
      cases hzb : isZero b
      · rw [Bool.and_false]; rfl
      · rw [fpRat_of_isZero ((isZero_fpAddend sub b).trans hzb), add_zero, mul_eq_zero, fpRat_eq_zero_iff,
          fpRat_eq_zero_iff, ← Bool.or_eq_true] at hz
        rw [hz]
        cases fpSign (fpAddend sub b) <;> cases (fpSign a != fpSign c) <;> rfl
    rw [hsame]
    refine h.exact hf (vxFused_eq_zero hn (isInfTimesZero_of_finite ha.2 hc.2)
      (by rw [hp, Bool.false_and, Bool.false_and])) hn ?_ (isNaN_fpZero _)
    rw [fpFused, hp, isInf_fpAddend, hb.2]
    exact ofDyadic_of_zero (by rw [Dyadic.toRat_add, toRat_mul_eq]; exact hz) _

end

/-- Settles O48: the exact results of each operation, by the classes of its operands. -/
theorem infinitiesAndZeros : Obligations.InfinitiesAndZeros := by
  intro s frt fra frb frc rc hs hf a b c finite exactly zeroSum sum product quotient fused
  have mul := fun na nc ht => Arithmetic.exactProduct hf (fmul_arithmetic hs frt fra frc rc) (a := a) (c := c) na nc ht
  have div := fun na nb hi hz => Arithmetic.exactQuotient hf (fdiv_arithmetic hs frt fra frb rc) (a := a) (b := b) na nb hi hz
  have times : ∀ {x y : DWord}, isZero x = false → isZero y = false → isInfTimesZero x y = false := fun hx hy => by
    rw [isInfTimesZero, hx, hy, Bool.and_false, Bool.false_and]; rfl
  refine ⟨Arithmetic.exactSum hf false (fadd_arithmetic hs frt fra frb rc),
    Arithmetic.exactSum hf true (fsub_arithmetic hs frt fra frb rc), fun ha nc zc => ?_, fun hc na za => ?_, fun ha hc => ?_,
    fun hc ha => ?_, fun ha hb => ?_, fun ha hb => ?_, fun ha hb zb => ?_,
    fun hg hb => Arithmetic.exactRoot hf (fsqrt_arithmetic hs frt frb rc hg) hb,
    Arithmetic.exactFused hf false (fmadd_arithmetic hs frt fra frb frc rc),
    Arithmetic.exactFused hf true (fmsub_arithmetic hs frt fra frb frc rc),
    Arithmetic.exactFused hf false (fnmadd_arithmetic hs frt fra frb frc rc),
    Arithmetic.exactFused hf true (fnmsub_arithmetic hs frt fra frb frc rc)⟩
  · exact (mul (isNaN_of_isInf ha) nc (times (isZero_of_isInf ha) zc)).1 (by rw [ha, Bool.true_or])
  · exact (mul na (isNaN_of_isInf hc) (times za (isZero_of_isInf hc))).1 (by rw [hc, Bool.or_true])
  · obtain ⟨na, ia⟩ := finite_of_isZero ha
    exact (mul na hc.1 (isInfTimesZero_of_finite ia hc.2)).2 (by rw [ia, hc.2]; rfl) (by rw [ha, Bool.true_or])
  · obtain ⟨nc, ic⟩ := finite_of_isZero hc
    exact (mul ha.1 nc (isInfTimesZero_of_finite ha.2 ic)).2 (by rw [ha.2, ic]; rfl) (by rw [hc, Bool.or_true])
  · exact (div (isNaN_of_isInf ha) hb.1 (by rw [hb.2, Bool.and_false]) (by rw [isZero_of_isInf ha, Bool.false_and])).1 ha
  · exact (div ha.1 (isNaN_of_isInf hb) (by rw [ha.2, Bool.false_and]) (by rw [isZero_of_isInf hb, Bool.and_false])).2 ha.2
      (.inl hb)
  · obtain ⟨na, ia⟩ := finite_of_isZero ha
    exact (div na hb.1 (by rw [hb.2, Bool.and_false]) (by rw [zb, Bool.and_false])).2 ia (.inr ⟨zb, ha⟩)

/-! ## Zero Divide (47_fp_model.md R543 to R545) -/

theorem fpClass_fpInf (fmt : FpFormat) (sg : Bool) : fpClass fmt (fpInf sg) = if sg then 0b01001 else 0b00101 := by
  rw [fpClass, isNaN_fpInf, isInf_fpInf, fpSign_fpInf]
  rfl

/-- Settles O51: a nonzero number over a zero is not invalid, and is no NaN. -/
theorem zeroDivideResults : Obligations.ZeroDivideResults := by
  intro s frt fra frb rc hs a b ha hb divides
  obtain ⟨fa, za⟩ := (isNumber_iff a).mp ha
  obtain ⟨nb, ib⟩ := finite_of_isZero hb
  have hn : [a, b].any isNaN = false := any_isNaN_eq_false (by simp [fa.1, nb])
  have hvx : vxQuotient a b = 0 := vxQuotient_eq_zero hn (by rw [fa.2, Bool.false_and]) (by rw [za, Bool.false_and])
  have hr : fpRatio a b = .zeroDivide (fpSign a != fpSign b) := by rw [fpRatio, fa.2, ib, hb]; rfl
  have hrep : repSingle a = true → [a, b].all repSingle = true := fun h => by
    have : repSingle b = true := by simp [repSingle, hb]
    simp [h, this]
  refine ((fdiv_arithmetic hs frt fra frb rc).both divides fun fmt res _ _ he => ?_).imp_right fun h hra => h (hrep hra)
  rw [show vxQuotient (s.fprOf fra) (s.fprOf frb) = 0 from hvx, show fpRatio (s.fprOf fra) (s.fprOf frb) = _ from hr,
    fpOutcome_numeric _ _ _ _ _ hn, fpCompute_zeroDivide _ _ _ hn] at he
  obtain ⟨t, ht, e⟩ := he
  have hset : SetsException s.fpscr t.fpscr (fpBit 5) := by
    rw [e.fpscr]; exact (fpZeroDivide_adds fmt (fpSign a != fpSign b) s.fpscr).setsException
  have hframe := e.frame
  have hz : BitsWithin fpArithBits fpZx := by decide
  simp only [Bool.false_eq_true, if_false] at e hframe
  unfold fpZeroDivide at e hframe
  cases hze : bitAt s.fpscr 27
  · rw [if_neg (by simp [fpZe, hze])] at e hframe
    obtain ⟨h13, h14, hval, hsingle, hcl⟩ := e.delivered hz
    exact ⟨t, ht, hset, h13, h14, fun _ => ⟨hval, hsingle, hcl.trans (fpClass_fpInf fmt _)⟩, (by simp [hze] at ·),
      by rw [hze]; exact hframe⟩
  · rw [if_pos (show fpZe s.fpscr = true from hze)] at e hframe
    obtain ⟨h13, h14, hkept⟩ := e.kept hz
    exact ⟨t, ht, hset, h13, h14, (by simp [hze] at ·), fun _ => hkept, by rw [hze]; exact hframe⟩

end Sys2Proof.Machine
end

section
/-!
PROOFS, family 47_fp_model.md.  Round to Single-Precision (O55).
-/
namespace Sys2Proof.Machine

/-! ## Round to Single-Precision (48_fp_instructions.md R641) -/

theorem execFrsp_endsWith {s : State} (hs : s.Ieee) (frt frb : RegNum) (rc : Bool) :
    EndsWith (exec (.frsp frt frb rc) s) s frt true rc (fpRoundSingle (s.fprOf frb) s.fpscr (drawnBit (s.draw 64))) := by
  rw [show exec (.frsp frt frb rc) s = execFrsp frt frb rc s from rfl, execFrsp, fpGuard_of_ieee _ hs]
  exact fpRun_endsWith frt true rc (fun f u => fpRoundSingle (s.fprOf frb) f (drawnBit u)) s

section
variable {b : DWord} (f : Word) (u : Bool)

theorem fpRoundSingle_snan (h : isSNaN b = true) : fpRoundSingle b f u = fpInvalid fpVxsnan (singleNaN b) f := if_pos h

theorem fpRoundSingle_qnan (h : isNaN b = true) (hs : isSNaN b = false) :
    fpRoundSingle b f u = fpExact .sp (singleNaN b) f :=
  (if_neg (by rw [hs]; decide)).trans (if_pos h)

theorem fpRoundSingle_special (h : isNaN b = false) (hb : (isInf b || isZero b) = true) :
    fpRoundSingle b f u = fpExact .sp b f :=
  (if_neg (by rw [isSNaN_of_not_isNaN h]; decide)).trans ((if_neg (by rw [h]; decide)).trans (if_pos hb))

theorem fpRoundSingle_number (h : isNumber b = true) :
    fpRoundSingle b f u = roundResult .sp (fpSign b) (fpMagnitude b) f u := by
  obtain ⟨hb, hz⟩ := (isNumber_iff b).mp h
  exact (if_neg (by rw [isSNaN_of_not_isNaN hb.1]; decide)).trans
    ((if_neg (by rw [hb.1]; decide)).trans (if_neg (by rw [hb.2, hz]; decide)))

end

/-- Every double-format number is within reach of the exponent adjustment of single precision. -/
theorem reaches_single {b : DWord} (h : isNumber b = true) : FpFormat.sp.Reaches (fpRat b) := by
  obtain ⟨hb, -⟩ := (isNumber_iff b).mp h
  have hsp := FpFormat.dp_standard.spans (x := b) (fun hp => absurd hp (by decide)) (fpExp_of_finite hb)
  exact ⟨(zpow_le_zpow_right₀ one_le_two (by decide)).trans (hsp.multiple.le_abs (fpRat_ne_zero h)),
    hsp.bound.trans_le (zpow_le_zpow_right₀ one_le_two (by decide))⟩

/-- frsp rounds every nonzero number to single precision. -/
theorem execFrsp_rounded {s : State} (hs : s.Ieee) (frt frb : RegNum) (rc : Bool) (h : isNumber (s.fprOf frb) = true) :
    DeliversRounded .sp false (exec (.frsp frt frb rc) s) s frt rc (fpRat (s.fprOf frb)) := by
  obtain ⟨-, hz⟩ := (isNumber_iff _).mp h
  have he := execFrsp_endsWith hs frt frb rc
  rw [fpRoundSingle_number _ _ h] at he
  have hd := fpMagnitude_describes (s.fprOf frb)
  have h0 : (fpMagnitude (s.fprOf frb)).sig ≠ 0 := fun h0 => by simp [(isZero_iff _).mpr h0] at hz
  have hsg : fpSign (s.fprOf frb) = true ↔ (fpRat (s.fprOf frb) : ℝ) < 0 := by
    rw [Rat.cast_lt_zero]; exact (fpRat_neg_iff hz).symm
  obtain ⟨o, ho, hp⟩ := roundResult_rounded FpFormat.sp_standard hd
    ((reaches_single h).roundable hd h0 fun hst => by cases hst) hsg s.fpscr (drawnBit (s.draw 64))
  exact EndsWith.rounded (neg := false) he ho hp

/-- A Quiet NaN keeps all but its low-order 29 bits (47_fp_model.md R511). -/
theorem singleNaN_of_quiet {b : DWord} (h : isNaN b = true) (hs : isSNaN b = false) :
    singleNaN b = b &&& 0xFFFFFFFFE0000000 := by
  rw [isSNaN, h, Bool.true_and, Bool.not_eq_false'] at hs
  have q : ∀ i, i < 64 → bitAt (0x0008000000000000 : DWord) i = decide (i = 12) := by decide
  have hq : quiet b = b := by
    apply eq_of_bitAt_eq
    intro i hi
    rw [quiet, bitAt_or, q i hi]
    by_cases h12 : i = 12
    · rw [h12, hs]; rfl
    · rw [decide_eq_false h12, Bool.or_false]
  rw [singleNaN, hq]

/-- What single format represents has no low-order bits to lose. -/
theorem and_high_of_repSingle {b : DWord} (h : fpFrac b % 2 ^ 29 = 0) : b &&& 0xFFFFFFFFE0000000 = b := by
  have high : ∀ i, i < 64 → bitAt (0xFFFFFFFFE0000000 : DWord) i = decide (i < 35) := by decide
  apply eq_of_bitAt_eq
  intro i hi
  rw [bitAt_and, high i hi]
  by_cases hlow : i < 35
  · rw [decide_eq_true hlow, Bool.and_true]
  · have hz : bitAt b i = false := by
      have hm : b.toNat % 2 ^ 29 = 0 := by rw [fpFrac_eq] at h; omega
      have ht := Nat.testBit_mod_two_pow b.toNat 29 (64 - 1 - i)
      rw [hm, Nat.zero_testBit, decide_eq_true (by omega), Bool.true_and] at ht
      exact ht.symm
    rw [hz, Bool.false_and]

/-- Settles O55: by the class of the operand. -/
theorem roundToSingleResults : Obligations.RoundToSingleResults := by
  intro s frt frb rc hs b high
  have he := execFrsp_endsWith hs frt frb rc
  refine ⟨fun hf hrep hsnan hcase => ?_, execFrsp_rounded hs frt frb rc, fun hf hnan hsnan => ?_, fun hsnan => ?_⟩
  · cases hnan : isNaN b
    · cases hspecial : (isInf b || isZero b)
      · rw [Bool.or_eq_false_iff] at hspecial
        have hnum : isNumber b = true := (isNumber_iff b).mpr ⟨⟨hnan, hspecial.1⟩, hspecial.2⟩
        refine (execFrsp_rounded hs frt frb rc hnum).exactly FpFormat.sp_standard hf hnum (fun _ => hrep) ?_
        rw [hnan, hspecial.2] at hcase
        have hmin : FpFormat.sp.emin = -126 := rfl
        refine (hcase.resolve_left (by decide)).resolve_left (by decide) |>.imp_left fun h => ?_
        have h' : 897 ≤ fpExp b := h
        show FpFormat.sp.emin ≤ (fpExp b : ℤ) - 1023
        omega
      · rw [fpRoundSingle_special _ _ hnan hspecial] at he
        exact he.exact hf
    · have hfrac : fpFrac b % 2 ^ 29 = 0 := by
        have hexp : fpExp b = 2047 ∧ fpFrac b ≠ 0 := by simpa [isNaN] using hnan
        rcases (repSingle_iff b).mp hrep with h | h | h | h <;> omega
      rw [fpRoundSingle_qnan _ _ hnan hsnan, singleNaN_of_quiet hnan hsnan, and_high_of_repSingle hfrac] at he
      exact he.exact hf
  · rw [fpRoundSingle_qnan _ _ hnan hsnan, singleNaN_of_quiet hnan hsnan] at he
    exact he.exact hf
  · rw [fpRoundSingle_snan _ _ hsnan] at he
    exact he.invalid (by decide) (by decide)

end Sys2Proof.Machine
end

section
/-!
PROOFS, family 47_fp_model.md.  The conversions to integer (O56).
-/
namespace Sys2Proof.Machine

/-! ## Conversions to integer (48_fp_instructions.md R642 to R645) -/

/-- The low-order bits of a converted integer. -/
theorem fpIntResult_toNat (word : Bool) (n : Int) (u : DWord) :
    (fpIntResult word n u).toNat % 2 ^ (fpIntBits word + 1) = (n % 2 ^ (fpIntBits word + 1)).toNat := by
  cases word
  · show (BitVec.ofInt 64 n).toNat % 2 ^ 64 = _
    rw [Nat.mod_eq_of_lt (BitVec.isLt _), BitVec.toNat_ofInt]
    rfl
  · show (highWord u ++ BitVec.ofInt 32 n).toNat % 2 ^ 32 = _
    rw [toNat_append_add, Nat.mul_add_mod_self_right, Nat.mod_eq_of_lt (BitVec.isLt _), BitVec.toNat_ofInt]
    rfl

/-- The integers that saturation delivers. -/
theorem saturated_toNat (word : Bool) :
    ((-2 ^ fpIntBits word : Int) % 2 ^ (fpIntBits word + 1)).toNat = 2 ^ fpIntBits word ∧
      ((2 ^ fpIntBits word - 1 : Int) % 2 ^ (fpIntBits word + 1)).toNat = 2 ^ fpIntBits word - 1 := by
  cases word <;> decide

/-- The Invalid Operation bits of a conversion to integer: VXCVI, and VXSNAN for a Signaling NaN. -/
def vxConvert (b : DWord) : Word := fpVxcvi ||| fpWhen (isSNaN b) fpVxsnan

theorem vxConvert_spec (b : DWord) : BitsWithin fpInvalidBits (vxConvert b) ∧ vxConvert b ≠ 0 := by
  unfold vxConvert
  cases isSNaN b <;> decide

section
variable (word : Bool) {b : DWord} (f : Word) (u : DWord) (mode : BitVec 2)

/-- The signed integer that a rounding of `b` gives. -/
def signedUnits (b : DWord) (r : Rounded) : Int := if fpSign b then -(r.units : Int) else r.units

theorem fpToInt_special (h : isNaN b = true ∨ isInf b = true) : fpToInt word mode b f u = fpIntInvalid word b (vxConvert b) f u := by
  unfold fpToInt vxConvert
  cases hs : isSNaN b
  · rw [if_neg (by decide), if_pos (Bool.or_eq_true_iff.mpr h), or_fpWhen_false]
  · rw [if_pos rfl, BitVec.or_comm]
    rfl

/-- A finite operand is rounded to an integer, which is delivered if it is in range. -/
theorem fpToInt_finite (h : isNaN b = false ∧ isInf b = false) {r : Rounded}
    (hr : RoundsAt (fpSign b) |(fpRat b : ℝ)| 0 mode r) :
    fpToInt word mode b f u =
      if signedUnits b r < -2 ^ fpIntBits word ∨ 2 ^ fpIntBits word ≤ signedUnits b r then fpIntInvalid word b (vxConvert b) f u
      else ⟨setFprf (setRounded f r.inc r.inexact) (u.setWidth 5), some (fpIntResult word (signedUnits b r) u),
        r.inexact && fpXe f⟩ := by
  have hs := isSNaN_of_not_isNaN h.1
  have hq : roundQ (fpSign b) (fpMagnitude b) 0 mode = r :=
    (roundQ_roundsAt _ _ _ _ _ (fpMagnitude_describes b) fun hst => by cases hst).unique hr
  unfold fpToInt vxConvert
  rw [if_neg (by rw [hs]; decide), if_neg (by rw [h.1, h.2]; decide), hs, or_fpWhen_false, hq]
  rfl

theorem fpIntInvalid_adds {vx : Word} (h : BitsWithin fpInvalidBits vx) (hn : vx ≠ 0) : (fpIntInvalid word b vx f u).Adds f vx := by
  have hb := sameOutside_setFrFi (f ||| vx) false false
  have he : fpEnabled f vx = fpVe f := by rw [fpEnabled_invalid h, bne_iff_ne.mpr hn, Bool.true_and]
  unfold fpIntInvalid
  cases hv : fpVe f
  · exact ⟨h.arith, hb.trans (sameOutside_setFprf _ _), (he.trans hv).symm⟩
  · exact ⟨h.arith, hb, (he.trans hv).symm⟩

end

/-- What an invalid conversion to an integer of `w` bits leaves (47_fp_model.md R541, R542). -/
def InvalidConversion (res : Res) (s : State) (frt : RegNum) (rc : Bool) (b : DWord) (w : Nat) : Prop :=
  ∃ t, res = .next t ∧ SetsException s.fpscr t.fpscr (vxConvert b) ∧
    bitAt t.fpscr 13 = false ∧ bitAt t.fpscr 14 = false ∧
    (bitAt s.fpscr 24 = false → t.singleOf frt = false ∧ (t.fprOf frt).toNat % 2 ^ w =
      if isNaN b || fpSign b then 2 ^ (w - 1) else 2 ^ (w - 1) - 1) ∧
    (bitAt s.fpscr 24 = true → t.fprOf frt = s.fprOf frt ∧ t.singleOf frt = s.singleOf frt ∧
      fld t.fpscr 15 5 = fld s.fpscr 15 5) ∧
    s.FloatingPoint t frt rc (s.enabledEvent (bitAt s.fpscr 24))

/-- What a conversion to an integer of `w` bits leaves of a rounding `r` in range. -/
def Converts (res : Res) (s : State) (frt : RegNum) (rc : Bool) (n : Int) (r : Rounded) (w : Nat) : Prop :=
  ∃ t, res = .next t ∧ (t.fprOf frt).toNat % 2 ^ w = (n % 2 ^ w).toNat ∧ t.singleOf frt = false ∧
    bitAt t.fpscr 13 = r.inc ∧ bitAt t.fpscr 14 = r.inexact ∧
    SetsException s.fpscr t.fpscr (fpWhen r.inexact fpXx) ∧
    s.FloatingPoint t frt rc (s.enabledEvent (r.inexact && bitAt s.fpscr 28))

section
variable {res : Res} {s : State} {frt : RegNum} {rc word : Bool} {b u : DWord}

theorem EndsWith.invalidConversion (h : EndsWith res s frt false rc (fpIntInvalid word b (vxConvert b) s.fpscr u)) :
    InvalidConversion res s frt rc b (fpIntBits word + 1) := by
  obtain ⟨t, ht, e⟩ := h
  obtain ⟨hm, hn⟩ := vxConvert_spec b
  have hset : SetsException s.fpscr t.fpscr (vxConvert b) := by
    rw [e.fpscr]; exact (fpIntInvalid_adds word s.fpscr u hm hn).setsException
  have hframe := e.frame
  unfold fpIntInvalid at e hframe
  cases hv : bitAt s.fpscr 24
  · rw [if_neg (by simp [fpVe, hv])] at e hframe
    obtain ⟨h13, h14, hval, hsingle, -⟩ := e.delivered hm.arith
    refine ⟨t, ht, hset, h13, h14, fun _ => ⟨hsingle, ?_⟩, (by simp [hv] at ·), by rw [hv]; exact hframe⟩
    rw [hval, fpIntResult_toNat, Nat.add_sub_cancel]
    split
    · exact (saturated_toNat word).1
    · exact (saturated_toNat word).2
  · rw [if_pos (show fpVe s.fpscr = true from hv)] at e hframe
    obtain ⟨h13, h14, hkept⟩ := e.kept hm.arith
    exact ⟨t, ht, hset, h13, h14, (by simp [hv] at ·), fun _ => hkept, by rw [hv]; exact hframe⟩

theorem EndsWith.converts {n : Int} {r : Rounded} {c : BitVec 5} (h : EndsWith res s frt false rc
      ⟨setFprf (setRounded s.fpscr r.inc r.inexact) c, some (fpIntResult word n u), r.inexact && fpXe s.fpscr⟩) :
    Converts res s frt rc n r (fpIntBits word + 1) := by
  obtain ⟨t, ht, e⟩ := h
  have hp := rounded_isRounded (f := s.fpscr) r c (fpIntResult word n u)
  obtain ⟨e13, e14, -⟩ := e.status
  refine ⟨t, ht, ?_, e.single, e13.trans (hp.fr _ rfl), e14.trans hp.fi, ?_, e.frame⟩
  · rw [e.value]
    exact fpIntResult_toNat word n u
  · rw [e.fpscr]
    exact (rounded_adds s.fpscr r.inc r.inexact c (fpIntResult word n u)).setsException

end

/-- Settles O56: the integer that the rounding gives is in range or not. -/
theorem convertToIntegerResults : Obligations.ConvertToIntegerResults := by
  intro s frt frb rc r hs b n gives invalid converts
  have of : ∀ {mode res} word, EndsWith res s frt false rc (fpToInt word mode b s.fpscr (s.draw 64)) →
      converts mode res (fpIntBits word + 1) := by
    intro mode res word h
    refine ⟨fun hb => ?_, fun nb ib hr => ?_⟩
    · rw [fpToInt_special word s.fpscr (s.draw 64) mode hb] at h
      exact h.invalidConversion
    · rw [fpToInt_finite word s.fpscr (s.draw 64) mode ⟨nb, ib⟩ hr] at h
      have range : (-2 ^ (fpIntBits word + 1 - 1) ≤ n ∧ n < 2 ^ (fpIntBits word + 1 - 1)) ↔
          ¬ (signedUnits b r < -2 ^ fpIntBits word ∨ 2 ^ fpIntBits word ≤ signedUnits b r) := by
        rw [Nat.add_sub_cancel, not_or, not_lt, not_le]
        rfl
      refine ⟨fun hin => ?_, fun hout => ?_⟩
      · rw [if_neg (range.mp hin)] at h
        exact h.converts
      · rw [if_pos (not_not.mp (mt range.mpr hout))] at h
        exact h.invalidConversion
  exact ⟨of false (fpDouble_endsWith hs frt rc _), of false (fpDouble_endsWith hs frt rc _),
    of true (fpDouble_endsWith hs frt rc _), of true (fpDouble_endsWith hs frt rc _)⟩

end Sys2Proof.Machine
end

section
/-!
PROOFS, family 47_fp_model.md.  The conversion from integer (O57).
-/
namespace Sys2Proof.Machine

/-! ## Convert From Integer (48_fp_instructions.md R646) -/

/-- What `HasMagnitude` says of the value itself. -/
theorem HasMagnitude.value_eq {x : DWord} {sg : Bool} {m : ℕ} {q : ℤ} (h : HasMagnitude x sg m q) :
    fpRat x = if sg then -(m * (2 : ℚ) ^ q) else m * (2 : ℚ) ^ q := by
  obtain ⟨-, -, hs, hv⟩ := h
  rw [abs_fpRat_eq] at hv
  rw [fpRat_eq, hs, hv]
  cases sg <;> simp

/-- A pattern that `packD` assembles in a normalized number's range is a number, of that class. -/
theorem packD_isNumber (s : Bool) {n : Nat} (h0 : n ≠ 0) (hn : n ≤ 2 ^ 53) {q : Int} (hlo : -1022 ≤ (n.log2 : ℤ) + q)
    (hhi : (n.log2 : ℤ) + q ≤ 1023) :
    isNumber (packD s n q) = true ∧ fpClass .dp (packD s n q) = normalClass s := by
  obtain ⟨hs, he, -⟩ := packD_normal s h0 hn hlo hhi
  have hf : isNaN (packD s n q) = false ∧ isInf (packD s n q) = false := (finite_iff _).mpr (by omega)
  have hz : isZero (packD s n q) = false := by
    rw [isZero, beq_eq_false_iff_ne.mpr (by omega : fpExp (packD s n q) ≠ 0), Bool.false_and]
  have hmin : ¬ fpExp (packD s n q) < FpFormat.dp.minExp := by
    have : FpFormat.dp.minExp = 1 := by decide
    omega
  refine ⟨(isNumber_iff _).mpr ⟨hf, hz⟩, ?_⟩
  rw [fpClass, hf.1, hf.2, hz, if_neg hmin, hs]
  rfl

/-- The magnitude of an integer operand. -/
def integerMagnitude (n : Int) : Magnitude := ⟨n.natAbs, 0, false⟩

theorem integerMagnitude_describes (n : Int) : (integerMagnitude n).Describes |(n : ℝ)| := by
  simp [Magnitude.Describes, integerMagnitude, Nat.cast_natAbs]

theorem integerMagnitude_exponent (n : Int) : (integerMagnitude n).exponent = n.natAbs.log2 := by
  rw [Magnitude.exponent, integerMagnitude, add_zero]

theorem natAbs_toInt_le (b : DWord) : b.toInt.natAbs ≤ 2 ^ 63 := by
  have hlt := BitVec.toInt_lt (x := b)
  have hle := BitVec.le_toInt (x := b)
  omega

theorem integerMagnitude_roundable {n : Int} (h0 : n ≠ 0) (hn : n.natAbs ≤ 2 ^ 63) : (integerMagnitude n).Roundable .dp := by
  have hl := log2_le_of_le_pow hn
  have he := integerMagnitude_exponent n
  have hadj : FpFormat.dp.adj = 1536 := rfl
  exact ⟨Int.natAbs_ne_zero.mpr h0, (fun hs => by cases hs), by omega, by omega⟩

/-- A nonzero integer is rounded as any other number is: its range has neither Overflow nor Underflow. -/
theorem fpFromInt_eq_roundResult {b : DWord} (h0 : b.toInt ≠ 0) (f : Word) (u : Bool) :
    fpFromInt b f = roundResult .dp (decide (b.toInt < 0)) (integerMagnitude b.toInt) f u := by
  have hn := natAbs_toInt_le b
  set n := b.toInt with hndef
  have hl := log2_le_of_le_pow hn
  have hexp : (integerMagnitude n).exponent = n.natAbs.log2 := integerMagnitude_exponent n
  have hq : lastPlace .dp (integerMagnitude n) = (n.natAbs.log2 : ℤ) - 52 := by rw [lastPlace, hexp]; rfl
  have hmin : FpFormat.dp.emin = -1022 := rfl
  have hmax : FpFormat.dp.emax = 1023 := rfl
  have hunit : FpFormat.dp.unit f (integerMagnitude n).exponent = lastPlace .dp (integerMagnitude n) :=
    FpFormat.unit_of_emin_le (by omega)
  have hin := roundQ_roundsIn (sg := decide (n < 0)) FpFormat.dp_standard (integerMagnitude_describes n)
    (integerMagnitude_roundable h0 hn) (by rw [decide_eq_true_iff, Int.cast_lt_zero]) f
  obtain ⟨hr0, hr1, -, hr2⟩ := hin.units_bounds (by decide) hunit
  have hp : FpFormat.dp.p = 53 := rfl
  have hrn : fld f 30 2 = fpRn f := rfl
  rw [hunit, hq, hrn] at hr0 hr1 hr2
  rw [hp] at hr1 hr2
  have hclass := (packD_isNumber (decide (n < 0)) hr0 hr1 (q := (n.natAbs.log2 : ℤ) - 52) (by omega) (by omega)).2
  unfold fpFromInt roundResult
  dsimp only
  rw [← hndef, if_neg h0, if_neg (by omega), hq, if_neg (by omega), hclass]
  rfl

theorem execFcfid_endsWith {s : State} (hs : s.Ieee) (frt frb : RegNum) (rc : Bool) :
    EndsWith (exec (.fcfid frt frb rc) s) s frt false rc (fpFromInt (s.fprOf frb) s.fpscr) :=
  fpDouble_endsWith hs frt rc _

/-- fcfid delivers a nonzero integer rounded once. -/
theorem execFcfid_rounded {s : State} (hs : s.Ieee) (frt frb : RegNum) (rc : Bool) (h0 : (s.fprOf frb).toInt ≠ 0) :
    DeliversRounded .dp false (exec (.fcfid frt frb rc) s) s frt rc (s.fprOf frb).toInt := by
  have he := execFcfid_endsWith hs frt frb rc
  rw [fpFromInt_eq_roundResult h0 s.fpscr false] at he
  obtain ⟨o, ho, hp⟩ := roundResult_rounded (sg := decide ((s.fprOf frb).toInt < 0)) FpFormat.dp_standard
    (integerMagnitude_describes _) (integerMagnitude_roundable h0 (natAbs_toInt_le _))
    (by rw [decide_eq_true_iff, Int.cast_lt_zero]) s.fpscr false
  exact EndsWith.rounded (neg := false) he ho hp

/-- A nonzero integer of at most 53 bits, or 2^53, is the value of a normalized number of double format. -/
theorem packD_integer {n : Int} (h0 : n ≠ 0) (hn : n.natAbs ≤ 2 ^ 53) :
    ∃ x, fpRat x = n ∧ fpSign x = decide (n < 0) ∧ isNumber x = true ∧ -1022 ≤ (fpExp x : ℤ) - 1023 := by
  have hl := log2_le_of_le_pow hn
  have hnat : n.natAbs ≠ 0 := Int.natAbs_ne_zero.mpr h0
  have hmag := packD_hasMagnitude (decide (n < 0)) (q := 0) hn (.inl (by decide)) (by omega)
  obtain ⟨hsign, hexp, -⟩ := packD_normal (decide (n < 0)) hnat hn (q := 0) (by omega) (by omega)
  refine ⟨packD (decide (n < 0)) n.natAbs 0, ?_, hsign,
    (packD_isNumber (decide (n < 0)) hnat hn (by omega) (by omega)).1, by omega⟩
  rw [hmag.value_eq, zpow_zero, mul_one]
  rcases lt_or_ge n 0 with hneg | hpos
  · rw [if_pos (decide_eq_true hneg), Nat.cast_natAbs, abs_of_neg hneg, Int.cast_neg, neg_neg]
  · rw [if_neg (by rw [decide_eq_true_eq, not_lt]; exact hpos), Nat.cast_natAbs, abs_of_nonneg hpos]

/-- Settles O57: an integer of at most 2^53 is a number of double format, to which it is rounded. -/
theorem convertFromIntegerResults : Obligations.ConvertFromIntegerResults := by
  intro s frt frb rc hs n
  refine ⟨fun hf hn => ?_, execFcfid_rounded hs frt frb rc⟩
  rcases eq_or_ne n 0 with h0 | h0
  · have he := execFcfid_endsWith hs frt frb rc
    rw [fpFromInt, if_pos h0] at he
    refine ⟨fpZero false, ?_, (fun h => by rw [fpSign_fpZero] at h; cases h), he.exact hf⟩
    rw [Dyadic.same_iff, ← fpRat_eq_toRat, h0, (fpRat_eq_zero_iff _).mpr (by simp [isZero]), Dyadic.toRat, Int.cast_zero,
      zero_mul]
  · obtain ⟨x, hval, hsign, hnum, hexp⟩ := packD_integer h0 hn
    have hr := execFcfid_rounded hs frt frb rc h0
    rw [← Rat.cast_intCast, ← hval] at hr
    refine ⟨x, ?_, fun h => of_decide_eq_true (hsign.symm.trans h),
      hr.exactly FpFormat.dp_standard hf hnum (fun h => absurd h (by decide)) (.inl hexp)⟩
    rw [Dyadic.same_iff, ← fpRat_eq_toRat, hval, Dyadic.toRat, zpow_zero, mul_one]

end Sys2Proof.Machine
end

section
/-!
PROOFS, family 48_fp_instructions.md.  The floating-point compares (O58).
-/
namespace Sys2Proof.Machine

/-! ## The order of the patterns (48_fp_instructions.md R650) -/

theorem fpOrder_eq (x : DWord) :
    fpOrder x = if fpSign x then -((fpExp x * 2 ^ 52 + fpFrac x : ℕ) : ℤ) else (fpExp x * 2 ^ 52 + fpFrac x : ℕ) := by
  have h : (fld x 1 63).toNat = fpExp x * 2 ^ 52 + fpFrac x := by
    rw [toNat_fld, fpExp_eq, fpFrac_eq]
    omega
  rw [fpOrder, h]

/-- Within one exponent the fractions order the magnitudes, else the exponents do. -/
theorem fpUnits_le_iff (x y : DWord) :
    fpUnits x ≤ fpUnits y ↔ fpExp x * 2 ^ 52 + fpFrac x ≤ fpExp y * 2 ^ 52 + fpFrac y := by
  have hx := fpFrac_lt x
  have hy := fpFrac_lt y
  rcases lt_trichotomy (fpExp x) (fpExp y) with hlt | heq | hgt
  · exact iff_of_true (fpUnits_lt hlt).le (by omega)
  · have hsig : fpUnits x ≤ fpUnits y ↔ fpSig x ≤ fpSig y := by
      rw [fpUnits, fpUnits, heq]
      exact Nat.mul_le_mul_right_iff (by positivity)
    rw [hsig, fpSig, fpSig, heq]
    split <;> omega
  · exact iff_of_false (fpUnits_lt hgt).not_ge (by omega)

theorem fpUnits_eq_zero_iff (x : DWord) : fpUnits x = 0 ↔ fpExp x * 2 ^ 52 + fpFrac x = 0 := by
  have hp : 2 ^ (fpExp x - 1) ≠ 0 := by positivity
  rw [fpUnits, mul_eq_zero, or_iff_left hp, ← isZero_iff, isZero, Bool.and_eq_true, beq_iff_eq, beq_iff_eq]
  omega

theorem fpRat_units (x : DWord) :
    fpRat x = ((if fpSign x then -(fpUnits x : ℤ) else fpUnits x : ℤ) : ℚ) * (2 : ℚ) ^ (-1074 : ℤ) := by
  have h := abs_fpRat_units x
  rw [abs_fpRat_eq] at h
  rw [fpRat_eq, h]
  cases fpSign x <;> simp

/-- Values are ordered as their patterns are: signed, in units of `2^-1074`. -/
theorem fpRat_le_iff (x y : DWord) : fpRat x ≤ fpRat y ↔ fpOrder x ≤ fpOrder y := by
  have hp : (0 : ℚ) < 2 ^ (-1074 : ℤ) := by positivity
  have hxy := fpUnits_le_iff x y
  have hyx := fpUnits_le_iff y x
  have hx := fpUnits_eq_zero_iff x
  have hy := fpUnits_eq_zero_iff y
  rw [fpRat_units, fpRat_units, mul_le_mul_iff_left₀ hp, Int.cast_le, fpOrder_eq, fpOrder_eq]
  cases fpSign x <;> cases fpSign y <;> simp only [if_true, if_false, Bool.false_eq_true] <;> omega

/-- The pattern of an infinity is at its end of the order, and no other pattern but a NaN is. -/
theorem fpOrder_of_isInf {x : DWord} (h : isInf x = true) :
    fpOrder x = if fpSign x then -(2047 * 2 ^ 52) else 2047 * 2 ^ 52 := by
  simp only [isInf, Bool.and_eq_true, beq_iff_eq] at h
  obtain ⟨he, hf⟩ := h
  rw [fpOrder_eq, he, hf]
  rfl

theorem fpOrder_of_finite {x : DWord} (h : isNaN x = false ∧ isInf x = false) :
    -(2047 * 2 ^ 52) < fpOrder x ∧ fpOrder x < 2047 * 2 ^ 52 := by
  have he := fpExp_of_finite h
  have hl := fpExp_lt x
  have hf := fpFrac_lt x
  rw [fpOrder_eq]
  split <;> omega

/-- Patterns that are no NaNs are ordered by value as `fpOrder` orders them. -/
theorem fpLessEq_iff {a b : DWord} (ha : isNaN a = false) (hb : isNaN b = false) :
    fpLessEq a b = true ↔ fpOrder a ≤ fpOrder b := by
  unfold fpLessEq
  cases hia : isInf a <;> cases hib : isInf b
  case false.false =>
    rw [if_neg Bool.false_ne_true, if_neg Bool.false_ne_true, Dyadic.le_iff, ← fpRat_eq_toRat, ← fpRat_eq_toRat]
    exact fpRat_le_iff a b
  case false.true =>
    have h := fpOrder_of_finite ⟨ha, hia⟩
    rw [fpOrder_of_isInf hib]
    cases fpSign b <;> simp <;> omega
  case true.false =>
    have h := fpOrder_of_finite ⟨hb, hib⟩
    rw [fpOrder_of_isInf hia]
    cases fpSign a <;> simp <;> omega
  case true.true =>
    rw [fpOrder_of_isInf hia, fpOrder_of_isInf hib]
    cases fpSign a <;> cases fpSign b <;> simp

/-- The code of a comparison, by value. -/
theorem fpCompareCode_eq (a b : DWord) :
    fpCompareCode a b = if isNaN a || isNaN b then 0b0001 else if !fpLessEq b a then 0b1000
      else if !fpLessEq a b then 0b0100 else 0b0010 := by
  have less : ∀ x y, isNaN x = false → isNaN y = false → ((!fpLessEq y x) = true ↔ fpOrder x < fpOrder y) :=
    fun x y hx hy => by rw [Bool.not_eq_true', ← Bool.not_eq_true, fpLessEq_iff hy hx, not_le]
  unfold fpCompareCode
  by_cases hn : (isNaN a || isNaN b) = true
  · rw [if_pos hn, if_pos hn]
  · have hab : isNaN a = false ∧ isNaN b = false := by simpa using hn
    obtain ⟨ha, hb⟩ := hab
    simp only [less a b ha hb, less b a hb ha]

/-! ## The exceptions of a compare -/

/-- VXSNAN and VXVC, each where it is raised. -/
def compareVx (snan vxvc : Bool) : Word := fpWhen snan fpVxsnan ||| fpWhen vxvc fpVxvc

theorem compareVx_within (snan vxvc : Bool) : BitsWithin fpInvalidBits (compareVx snan vxvc) :=
  BitsWithin.or (.when (by decide) _) (.when (by decide) _)

theorem bitAt_compareVx (snan vxvc : Bool) {i : Nat} (hi : i < 32) :
    bitAt (compareVx snan vxvc) i = ((snan && decide (i = 7)) || (vxvc && decide (i = 12))) := by
  rw [compareVx, bitAt_or, bitAt_fpWhen, bitAt_fpWhen, fpVxsnan, fpVxvc, bitAt_fpBit hi (by decide),
    bitAt_fpBit hi (by decide)]

theorem compareVx_ne_zero (snan vxvc : Bool) : (compareVx snan vxvc != 0) = (snan || vxvc) := by
  revert snan vxvc
  decide

/-- The bits a compare raises: a Signaling NaN raises VXVC in the ordered form only where VE is 0. -/
theorem fpCompareVx_eq (ordered : Bool) (a b : DWord) (f : Word) :
    fpCompareVx ordered a b f = compareVx (isSNaN a || isSNaN b)
      (ordered && if isSNaN a || isSNaN b then !fpVe f else isNaN a || isNaN b) := by
  unfold fpCompareVx compareVx
  cases isSNaN a || isSNaN b
  · exact (BitVec.zero_or).symm
  · rfl

theorem isNaN_of_isSNaN {x : DWord} (h : isSNaN x = true) : isNaN x = true := (Bool.and_eq_true_iff.mp h).1

theorem and_eq_of_and_or_eq {f m n : Word} (h : f &&& (m ||| n) = m ||| n) : f &&& m = m := by
  have hm : (m ||| n) &&& m = m := eq_of_bitAt_eq fun i _ => by
    rw [bitAt_and, bitAt_or, Bool.and_comm]
    exact inf_sup_self
  rw [← hm, ← BitVec.and_assoc, h]

/-- Some of the bits of `m` or `n` are new if some of `m` or some of `n` are. -/
theorem and_bne_or (f m n : Word) : (f &&& (m ||| n) != (m ||| n)) = ((f &&& m != m) || (f &&& n != n)) := by
  rw [Bool.eq_iff_iff, Bool.or_eq_true, bne_iff_ne, bne_iff_ne, bne_iff_ne, ← not_and_or, not_iff_not]
  refine ⟨fun h => ⟨and_eq_of_and_or_eq h, ?_⟩, fun ⟨hm, hn⟩ => by rw [BitVec.and_or_distrib_left, hm, hn]⟩
  rw [BitVec.or_comm] at h
  exact and_eq_of_and_or_eq h

/-- One bit is new if it was 0. -/
theorem and_bne_fpWhen (f : Word) (c : Bool) {j : Nat} (hj : j < 32) :
    (f &&& fpWhen c (fpBit j) != fpWhen c (fpBit j)) = (c && !bitAt f j) := by
  rw [Bool.eq_iff_iff, bne_iff_ne, Bool.and_eq_true, Bool.not_eq_true', ← Bool.not_eq_true, ← Classical.not_imp, not_iff_not]
  constructor
  · rintro h rfl
    have hb := congrArg (bitAt · j) h
    simpa [bitAt_and, bitAt_fpWhen, bitAt_fpBit hj hj] using hb
  · intro h
    apply eq_of_bitAt_eq
    intro i hi
    rw [bitAt_and, bitAt_fpWhen, bitAt_fpBit hi hj]
    by_cases hij : i = j
    · subst hij
      cases c
      · simp
      · simp [h rfl]
    · simp [hij]

theorem and_bne_compareVx (f : Word) (snan vxvc : Bool) :
    (f &&& compareVx snan vxvc != compareVx snan vxvc) = ((snan && !bitAt f 7) || (vxvc && !bitAt f 12)) := by
  rw [compareVx, and_bne_or, fpVxsnan, fpVxvc, and_bne_fpWhen f snan (by decide), and_bne_fpWhen f vxvc (by decide)]

/-! ## The FPSCR after a compare -/

/-- The FPSCR `f` after a compare: FPCC, the exception bits, FX and the summaries. -/
def compareStatus (f : Word) (code : BitVec 4) (snan vxvc : Bool) : Word :=
  fpEndStatus f (setFld f 16 code ||| compareVx snan vxvc)

section
variable (f : Word) (code : BitVec 4) (snan vxvc : Bool)

theorem compareStatus_bit {i : Nat} (h : 3 ≤ i) (hi : i < 32) :
    bitAt (compareStatus f code snan vxvc) i =
      ((if 16 ≤ i ∧ i < 20 then bitAt code (i - 16) else bitAt f i) ||
        ((snan && decide (i = 7)) || (vxvc && decide (i = 12)))) := by
  rw [compareStatus, fpEndStatus_bit _ _ h hi, bitAt_or, bitAt_setFld _ _ hi (by decide), bitAt_compareVx _ _ hi]

theorem compareStatus_fpcc : fld (compareStatus f code snan vxvc) 16 4 = code := by
  apply eq_of_bitAt_eq
  intro i hi
  rw [bitAt_fld _ hi (by decide), compareStatus_bit _ _ _ _ (by omega) (by omega), if_pos (by omega),
    decide_eq_false (by omega), decide_eq_false (by omega), Nat.add_sub_cancel_left]
  simp

theorem compareStatus_vx : bitAt (compareStatus f code snan vxvc) 7 = (bitAt f 7 || snan) ∧
    bitAt (compareStatus f code snan vxvc) 12 = (bitAt f 12 || vxvc) := by
  rw [compareStatus_bit _ _ _ _ (by decide) (by decide), compareStatus_bit _ _ _ _ (by decide) (by decide)]
  simp

theorem compareStatus_fx : bitAt (compareStatus f code snan vxvc) 0 =
    (bitAt f 0 || (snan && !bitAt f 7) || (vxvc && !bitAt f 12)) := by
  have adds : FpOutcome.Adds ⟨setFld f 16 code ||| compareVx snan vxvc, none, compareVx snan vxvc != 0 && fpVe f⟩ f
      (compareVx snan vxvc) :=
    ⟨(compareVx_within snan vxvc).arith, (sameOutside_setFld code (by decide) (by decide)).or _,
      (fpEnabled_invalid (compareVx_within snan vxvc) f).symm⟩
  rw [Bool.or_assoc, ← and_bne_compareVx]
  exact adds.fx

theorem bitAt_compareMask : ∀ i, i < 32 → bitAt (0xE108F000 : Word) i =
    decide (i < 3 ∨ i = 7 ∨ i = 12 ∨ 16 ≤ i ∧ i < 20) := by decide

theorem compareStatus_sameOutside : SameOutside 0xE108F000 f (compareStatus f code snan vxvc) := by
  rw [sameOutside_iff]
  intro i hi hm
  rw [bitAt_compareMask i hi, decide_eq_false_iff_not] at hm
  rw [compareStatus_bit _ _ _ _ (by omega) hi, if_neg (by omega), decide_eq_false (by omega), decide_eq_false (by omega),
    Bool.and_false, Bool.and_false, Bool.or_false, Bool.or_false]

end

/-! ## The instructions (48_fp_instructions.md R651, R652) -/

/-- What a compare leaves: `code` in the CR field and in FPCC, VXSNAN and VXVC added, and the event if `caused`. -/
def FloatCompares (res : Res) (s : State) (bf : BitVec 3) (code : BitVec 4) (snan vxvc caused : Bool) : Prop :=
  ∃ t, res = .next t ∧
    t.crField bf = code ∧ s.OtherCrFields t bf ∧ fld t.fpscr 16 4 = code ∧
    bitAt t.fpscr 7 = (bitAt s.fpscr 7 || snan) ∧ bitAt t.fpscr 12 = (bitAt s.fpscr 12 || vxvc) ∧
    bitAt t.fpscr 0 = (bitAt s.fpscr 0 || (snan && !bitAt s.fpscr 7) || (vxvc && !bitAt s.fpscr 12)) ∧
    FpscrSummaries t.fpscr ∧ SameOutside 0xE108F000 s.fpscr t.fpscr ∧
    t.event = s.enabledEvent caused ∧
    t = { s with cr := t.cr, fpscr := t.fpscr, pc := s.nextPc, event := t.event }

theorem fpCompare_floatCompares {s : State} (hs : s.Ieee) (ordered : Bool) (bf : BitVec 3) (a b : DWord) {snan vxvc : Bool}
    (hvx : fpCompareVx ordered a b s.fpscr = compareVx snan vxvc) :
    FloatCompares (fpCompare ordered bf a b s) s bf (fpCompareCode a b) snan vxvc ((snan || vxvc) && bitAt s.fpscr 24) := by
  obtain ⟨h7, h12⟩ := compareStatus_vx s.fpscr (fpCompareCode a b) snan vxvc
  have hcaused : (compareVx snan vxvc != 0 && fpVe s.fpscr) = ((snan || vxvc) && bitAt s.fpscr 24) := by
    rw [compareVx_ne_zero, fpVe]
  rw [fpCompare, fpGuard_of_ieee _ hs]
  dsimp only
  rw [hvx, hcaused, fpComplete_eq]
  exact ⟨_, rfl, (s.crField_setCrField bf bf _).trans (if_pos rfl), s.otherCrFields_setCrField bf _,
    compareStatus_fpcc .., h7, h12, compareStatus_fx .., fpEndStatus_summaries _ _, compareStatus_sameOutside .., rfl, rfl⟩

/-- Settles O58: the patterns are ordered as their values are, and a compare is invalid where VXSNAN or VXVC is raised. -/
theorem floatingCompareResults : Obligations.FloatingCompareResults := by
  intro s bf fra frb hs a b code snan nan compared
  have hcode : fpCompareCode a b = code := fpCompareCode_eq a b
  have of : ∀ {ordered vxvc inv}, (ordered && if snan then !fpVe s.fpscr else nan) = vxvc → (snan || vxvc) = inv →
      compared (fpCompare ordered bf a b s) vxvc inv := by
    rintro ordered _ _ rfl rfl
    have h := fpCompare_floatCompares hs ordered bf a b (fpCompareVx_eq ordered a b s.fpscr)
    rwa [hcode] at h
  have hnan : snan = true → nan = true := fun h =>
    (Bool.or_eq_true_iff.mp h).elim (fun ha => Bool.or_eq_true_iff.mpr (.inl (isNaN_of_isSNaN ha)))
      fun hb => Bool.or_eq_true_iff.mpr (.inr (isNaN_of_isSNaN hb))
  refine ⟨of (ordered := false) rfl (Bool.or_false _), of (ordered := true) rfl ?_⟩
  clear_value snan nan
  cases snan
  · rfl
  · exact (hnan rfl).symm

end Sys2Proof.Machine
end

section
/-!
PROOFS, family 60_exceptions.md.  What a step that raises before execution does (O4), and what an event leaves (O7).
-/
namespace Sys2Proof.Machine

/-! ## Steps that raise before execution (60_exceptions.md R713, R715) -/

theorem step_of_unavailable {s : State} (he : s.event = none) (hw : s.wellFormed = true)
    (ha : s.available .fetch s.pc 4 = false) : step s = raise (.instructionStorage s.pc) s.inRun := by
  rw [step, he, hw, ha]
  rfl

/-- A word that is no instruction of the three Books is illegal. -/
theorem stepWord_of_rejected {w : Word} {e : Rejection} (h : decode w = .error e) (hb : ∀ m, e ≠ .otherBook m)
    (s : State) : stepWord w s = raiseIllegal (s.setInsn w) := by
  rw [stepWord, h]
  cases e with
  | otherBook m => exact absurd rfl (hb m)
  | allZeros | reservedOpcode0 | unusedPrimary | unusedExtended => rfl

/-- Settles O4: the checks of a step come before the fetch, the decoder's answer before the execution. -/
theorem stepRaisesBeforeExecution : Obligations.StepRaisesBeforeExecution := fun s _ he hw =>
  ⟨fun ha => step_of_unavailable he hw ha,
    fun ha hm hd hb => (step_of_fetched he hw ha hm).trans (stepWord_of_rejected hd hb s.inRun)⟩

/-! ## Events (60_exceptions.md R711) -/

/-- Settles O7: of what an instruction can do, raising changes nothing but the event, and completing ends with no event but
that of an enabled floating-point exception. -/
theorem eventsChangeNothingElse : Obligations.EventsChangeNothingElse := by
  intro i s t e h hs ht hfp
  cases effect_of_exec h with
  | raises => rfl
  | @completes _ _ m caused hk =>
    have hm : m.event = none := by rw [hk.frame]; exact hs
    rcases m.enabledEvent_cases caused with hev | ⟨-, -, hev⟩
    · exact nomatch ht.symm.trans (hev.trans hm)
    · exact absurd (Option.some.inj (ht.symm.trans hev)) (hfp m.pc m.insn)
  | b | bc | bclr | bcctr | mtxer | mtlr | mtctr | mcrxr => exact nomatch ht.symm.trans hs

end Sys2Proof.Machine
end

section
/-!
PROOFS, family 48_fp_load_store_move.md.  The floating-point loads (O38), stores (O39) and moves (O40).
-/
namespace Sys2Proof.Machine

/-! ## Loads (R580 to R589) -/

/-- A load into FPR `frt` completes: the FPR holds `v`, the ghost bit is `sp`, and RA takes the effective address if `upd`. -/
def LoadsFpr (res : Res) (s : State) (frt ra : RegNum) (ea v : DWord) (sp upd : Bool) : Prop :=
  ∃ t, res = .next t ∧ t.fprOf frt = v ∧ t.singleOf frt = sp ∧ s.OtherFprs t frt ∧ s.SameBytes t ∧
    (∀ q, t.gprOf q = if upd && q == ra then ea else s.gprOf q) ∧
    t = { s with fpr := t.fpr, single := t.single, gpr := t.gpr, pc := s.nextPc }

section
variable (s : State) (frt ra : RegNum) (ea : DWord) (n : Nat) (conv : DWord → DWord) (sp : Bool)

theorem fpLoad_loadsFpr (h : s.Accessible .load ea n) :
    LoadsFpr (fpLoad frt ea n conv sp s) s frt ra ea (conv (s.memRead ea n)) sp false :=
  ⟨_, loadThen_of_accessible _ h, s.fprOf_setFpr_same frt _ sp,
    s.singleOf_setFpr_same frt (conv (s.memRead ea n)) sp,
    s.setFpr_otherFprs frt (conv (s.memRead ea n)) sp, fun _ => rfl, fun _ => rfl, rfl⟩

theorem fpLoadUpdate_loadsFpr (h0 : ra ≠ 0) (h : s.Accessible .load ea n) :
    LoadsFpr (fpLoadUpdate frt ra ea n conv sp s) s frt ra ea (conv (s.memRead ea n)) sp true := by
  rw [fpLoadUpdate_of_valid s ea n h0]
  refine ⟨_, loadThen_of_accessible _ h, s.fprOf_setFpr_same frt _ sp,
    s.singleOf_setFpr_same frt (conv (s.memRead ea n)) sp,
    s.setFpr_otherFprs frt (conv (s.memRead ea n)) sp, fun _ => rfl, fun q => ?_, rfl⟩
  simp only [Bool.true_and, beq_iff_eq]
  exact State.gprOf_setGpr _ ra q ea

theorem fpLoadUpdate_of_invalid (h : ra = 0) : RaisesIllegal (fpLoadUpdate frt ra ea n conv sp s) s :=
  if_pos ((storeUpdateInvalid_iff ra).mpr h)

end

/-- A word loaded is converted from the operand's value. -/
theorem State.memRead_wordToDouble (s : State) (ea : DWord) :
    wordToDouble (s.memRead ea 4) = toDouble (BitVec.ofNat 32 (s.operandValue ea 4)) := by
  refine congrArg toDouble (BitVec.eq_of_toNat_eq ((s.memRead_setWidth_toNat ea (n := 4) (by decide)).trans ?_))
  have hlt := s.operandValue_lt ea 4
  rw [BitVec.toNat_ofNat, Nat.mod_eq_of_lt (by omega)]

theorem State.memRead_doubleword (s : State) (ea : DWord) :
    id (s.memRead ea 8) = BitVec.ofNat 64 (s.operandValue ea 8) :=
  BitVec.eq_of_toNat_eq ((s.memRead_toNat ea 8).trans (BitVec.toNat_ofNat _ _).symm)

/-- Settles O38: every form is `fpLoad` or `fpLoadUpdate`, of a word converted or of a doubleword. -/
theorem floatingLoadResults : Obligations.FloatingLoadResults := by
  intro s frt ra rb d base disp single double loads
  have word : ∀ ea, wordToDouble (s.memRead ea 4) = single ea := s.memRead_wordToDouble
  have dword : ∀ ea, id (s.memRead ea 8) = double ea := s.memRead_doubleword
  have plain : ∀ {ea n conv v sp}, conv (s.memRead ea n) = v → s.Accessible .load ea n →
      loads (fpLoad frt ea n conv sp s) ea v sp false := fun hv h => hv ▸ fpLoad_loadsFpr s frt ra _ _ _ _ h
  have update : ∀ {ea ea' n conv v sp}, ra ≠ 0 → ea' = ea → conv (s.memRead ea n) = v → s.Accessible .load ea n →
      loads (fpLoadUpdate frt ra ea' n conv sp s) ea v sp true := fun h0 he hv h =>
    by subst he hv; exact fpLoadUpdate_loadsFpr s frt ra _ _ _ _ h0 h
  refine ⟨plain (word _), plain (word _), plain (dword _), plain (dword _), fun h0 => ?_, fun h0 => ?_⟩
  · have hx : s.eaXU ra rb = base + s.gprOf rb := s.eaXU_eq h0 rb
    have hd : s.eaDU ra d = base + disp := s.eaDU_eq h0 d
    exact ⟨update h0 hd (word _), update h0 hx (word _), update h0 hd (dword _), update h0 hx (dword _)⟩
  · have invalid : ∀ {ea n conv sp}, RaisesIllegal (fpLoadUpdate frt ra ea n conv sp s) s :=
      fpLoadUpdate_of_invalid s frt ra _ _ _ _ h0
    exact ⟨invalid, invalid, invalid, invalid⟩

/-! ## Stores (R590, R600 to R608) -/

theorem fpStoreUpdate_of_invalid {ra : RegNum} (h : ra = 0) (v ea : DWord) (n : Nat) (s : State) :
    RaisesIllegal (fpStoreUpdate ra v ea n s) s :=
  if_pos ((storeUpdateInvalid_iff ra).mpr h)

section
variable {s : State} {ea : DWord} {n : Nat} (hw : s.mem.wf = true) (hn : n ≤ 8) (h : s.Accessible .store ea n)
include hw hn h

theorem fpStore_storesOperand (v : DWord) : StoresOperand (fpStore v ea n s) s ea n v.toNat none :=
  storeThen_storesOperand hw hn h rfl rfl (s.gprOf_memWrite ea n v)

theorem fpStoreUpdate_storesOperand {ra : RegNum} (h0 : ra ≠ 0) (v : DWord) :
    StoresOperand (fpStoreUpdate ra v ea n s) s ea n v.toNat (some ra) := by
  rw [fpStoreUpdate_of_valid s ea n h0]
  refine storeThen_storesOperand hw hn h rfl rfl fun q => ?_
  refine (State.gprOf_setGpr _ ra q ea).trans ?_
  rw [State.gprOf_memWrite]

end

/-- The word that a store of single format takes, where `SINGLE` defines one. -/
theorem State.singleToStore_toNat {s : State} {frs : RegNum} {w : Word} (h : toSingle (s.fprOf frs) = some w) :
    (s.singleToStore frs).toNat = w.toNat := by
  rw [State.singleToStore, h]
  exact zext64_toNat (by decide) w

/-- Settles O39: every form is a store of the FPR's contents or of a word made from them. -/
theorem floatingStoreResults : Obligations.FloatingStoreResults := by
  intro s frs ra rb d w hw base x eaD eaX st single
  have plain : ∀ ea, st ea 8 x.toNat none (storeFrom x ea 8 s) := fun ea h =>
    storeFrom_storesOperand hw (by decide) h x
  have word : ∀ ea, single ea none (fpStore (s.singleToStore frs) ea 4 s) := fun ea =>
    ⟨fun hx h => State.singleToStore_toNat hx ▸ fpStore_storesOperand hw (by decide) h _,
      fun _ h => ⟨_, fpStore_storesOperand hw (by decide) h _⟩⟩
  refine ⟨word _, word _, plain _, plain _, fun hs h => ?_, fun _ h => ?_, fun h0 => ?_, fun h0 => ?_⟩
  · have hv : exec (.stfiwx frs ra rb) s = fpStore x eaX 4 s :=
      congrArg (fun v => fpStore v eaX 4 s) (if_neg (Bool.eq_false_iff.mp hs))
    exact hv ▸ fpStore_storesOperand hw (by decide) h x
  · exact ⟨_, fpStore_storesOperand hw (by decide) h _⟩
  · have plainUpdate : ∀ {ea ea'}, ea' = ea → st ea 8 x.toNat (some ra) (storeUpdate ra x ea' 8 s) := fun he h =>
      he ▸ storeUpdate_storesOperand hw (by decide) h h0 x
    have wordUpdate : ∀ {ea ea'}, ea' = ea → single ea (some ra) (fpStoreUpdate ra (s.singleToStore frs) ea' 4 s) :=
      fun he => he ▸
        ⟨fun hx h => State.singleToStore_toNat hx ▸ fpStoreUpdate_storesOperand hw (by decide) h h0 _,
          fun _ h => ⟨_, fpStoreUpdate_storesOperand hw (by decide) h h0 _⟩⟩
    have hx : s.eaXU ra rb = eaX := s.eaXU_eq h0 rb
    have hd : s.eaDU ra d = eaD := s.eaDU_eq h0 d
    exact ⟨wordUpdate hd, wordUpdate hx, plainUpdate hd, plainUpdate hx⟩
  · exact ⟨fpStoreUpdate_of_invalid h0 _ _ _ s, fpStoreUpdate_of_invalid h0 _ _ _ s, storeUpdate_of_invalid h0 _ _ _ s,
      storeUpdate_of_invalid h0 _ _ _ s⟩

/-! ## Moves and select (R610 to R614, 49_optional.md R686) -/

/-- A register copied into FPR `frt`: the FPR, its ghost bit, CR Field 1 if `rc`, pc, and nothing else. -/
theorem finish_setFpr_record1 (s : State) (frt : RegNum) (v : DWord) (sp rc : Bool) :
    ∃ t, finish ((s.setFpr frt v sp).record1 rc) = .next t ∧ t.fprOf frt = v ∧ t.singleOf frt = sp ∧
      t.fpscr = s.fpscr ∧ t.undef = s.undef ∧ s.FloatingPoint t frt rc s.event := by
  have record : s.Recorded1 ((s.setFpr frt v sp).record1 rc) rc := (s.setFpr frt v sp).recorded1_record1 rc
  refine ⟨_, rfl, ?_, ?_, ?_, ?_, ?_, record, ?_, ?_, ?_, ?_⟩ <;> rw [State.record1_frame]
  · exact s.fprOf_setFpr_same frt v sp
  · exact s.singleOf_setFpr_same frt v sp
  · rfl
  · rfl
  · exact s.setFpr_otherFprs frt v sp
  · exact fun _ => rfl
  · rfl
  · rfl
  · rfl

/-- A pattern with its sign bit written. -/
theorem setSign_fields (x : DWord) (b : Bool) :
    bitAt (setBitAt x 0 b) 0 = b ∧ fld (setBitAt x 0 b) 1 63 = fld x 1 63 :=
  ⟨(bitAt_setBitAt x b (by decide) (by decide)).trans (if_pos rfl),
    fld_setFld_disjoint x (BitVec.ofBool b) (by decide) (by decide) (by decide)⟩

/-- fsel tests a number by its sign, zeros aside. -/
theorem fsel_negative_iff (a : DWord) :
    ((fpVal a).num < 0 ∨ a = fpInf true) ↔ fpSign a = true ∧ isZero a = false := by
  have hnum : (fpVal a).num < 0 ↔ fpSign a = true ∧ isZero a = false := by
    rw [← Bool.not_eq_true, isZero_iff, fpVal]
    cases fpSign a
    · simp
    · simp only [if_true, true_and]
      omega
  refine ⟨fun h => h.elim hnum.mp ?_, fun h => .inl (hnum.mpr h)⟩
  rintro rfl
  decide

/-- What fsel delivers. -/
theorem fsel_choice (a b c : DWord) :
    (if !isNaN a && (isZero a || !fpSign a) then c else b) =
      if isNaN a then b else if (fpVal a).num < 0 ∨ a = fpInf true then b else c := by
  simp only [fsel_negative_iff]
  cases isNaN a <;> cases isZero a <;> cases fpSign a <;> rfl

/-- Settles O40: every form copies a register, with its sign bit written or not. -/
theorem floatingMoveResults : Obligations.FloatingMoveResults := by
  intro s frt fra frb frc rc x moved a chosen
  have copies : ∀ (v y : DWord) (sp : Bool), fld y 1 63 = fld v 1 63 →
      moved (finish ((s.setFpr frt y sp).record1 rc)) (bitAt y 0) v sp := fun v y sp hy => by
    obtain ⟨t, ht, hv, hrest⟩ := finish_setFpr_record1 s frt y sp rc
    exact ⟨t, ht, by rw [hv], by rw [hv, hy], hrest⟩
  have signed : ∀ b, moved (fpMove frt frb rc (setBitAt x 0 b) s) b x (s.singleOf frb) := fun b => by
    obtain ⟨hb, hx⟩ := setSign_fields x b
    have h := copies x (setBitAt x 0 b) (s.singleOf frb) hx
    rwa [hb] at h
  refine ⟨copies x x _ rfl, signed _, signed _, signed _, fun hg => ?_⟩
  have hsel : exec (.fsel frt fra frb frc rc) s = finish ((s.setFpr frt chosen false).record1 rc) :=
    (ite_not_provided hg _ _).trans (by rw [fsel_choice])
  rw [hsel]
  exact copies chosen chosen false rfl

end Sys2Proof.Machine
end

section
/-!
PROOFS, family 49_optional.md.  The contract of an estimate (49_optional.md R681), and the draws that keep it.
-/
namespace Sys2Proof.Machine

/-! ## The tests of the contract, over the rationals -/

theorem fpAbs_toRat (x : DWord) : (fpAbs x).toRat = |fpRat x| := by
  rw [abs_fpRat_eq, Dyadic.toRat, fpAbs]
  push_cast
  rfl

theorem Dyadic.toRat_ofNat (n : Nat) : (Dyadic.ofNat n).toRat = n := by
  simp [Dyadic.toRat, Dyadic.ofNat]

theorem abs_fpRat_pos {x : DWord} (h : isZero x = false) : 0 < |fpRat x| := by
  rw [abs_pos, Ne, fpRat_eq_zero_iff, h]
  decide

theorem fpRat_sign (x : DWord) : fpRat x = (if fpSign x then -1 else 1) * |fpRat x| := by
  rw [abs_fpRat_eq, ← fpRat_eq]

theorem FpFormat.Standard.maxFin_abs {fmt : FpFormat} (hf : fmt.Standard) : |fpRat fmt.maxFin| = fpRat fmt.maxFin := by
  have hs : fpSign fmt.maxFin = false := by rcases hf.known with rfl | rfl <;> decide
  conv_rhs => rw [fpRat_sign, hs]
  simp

theorem recipSmall_eq (fmt : FpFormat) {b : DWord} (hb : isZero b = false) : recipSmall fmt b = recipTiny fmt b := by
  have hp := abs_fpRat_pos hb
  have hunit : Dyadic.toRat ⟨1, fmt.emin⟩ = (2 : ℚ) ^ fmt.emin := by simp [Dyadic.toRat]
  rw [Bool.eq_iff_iff, recipSmall, recipTiny, Bool.not_eq_true', ← Bool.not_eq_true, Dyadic.le_iff, Dyadic.toRat_mul,
    Dyadic.toRat_mul, Dyadic.toRat_ofNat, Dyadic.toRat_ofNat, fpAbs_toRat, hunit, decide_eq_true_iff, not_le, abs_div,
    abs_one, div_mul_eq_mul_div, div_lt_iff₀ hp]
  push_cast
  constructor <;> intro h <;> linarith

theorem recipLarge_eq {fmt : FpFormat} (hf : fmt.Standard) {b : DWord} (hb : isZero b = false) :
    recipLarge fmt b = recipHuge fmt b := by
  have hp := abs_fpRat_pos hb
  rw [Bool.eq_iff_iff, recipLarge, recipHuge, Bool.not_eq_true', ← Bool.not_eq_true, Dyadic.le_iff, Dyadic.toRat_mul,
    Dyadic.toRat_mul, Dyadic.toRat_ofNat, Dyadic.toRat_ofNat, fpAbs_toRat, fpAbs_toRat, hf.maxFin_abs,
    decide_eq_true_iff, not_le, abs_div, abs_one, div_mul_eq_mul_div, lt_div_iff₀ hp]
  push_cast
  constructor <;> intro h <;> linarith

theorem estimateClose_recip_iff (r b : DWord) : estimateClose false r b = true ↔
    255 ≤ 256 * (|fpRat r| * |fpRat b|) ∧ 256 * (|fpRat r| * |fpRat b|) ≤ 257 := by
  rw [estimateClose, if_neg Bool.false_ne_true, Bool.and_eq_true, Dyadic.le_iff, Dyadic.le_iff]
  simp only [Dyadic.toRat_mul, Dyadic.toRat_ofNat, fpAbs_toRat]
  push_cast
  rfl

theorem estimateClose_rsqrt_iff (r b : DWord) : estimateClose true r b = true ↔
    961 ≤ 1024 * (|fpRat r| * |fpRat r| * |fpRat b|) ∧ 1024 * (|fpRat r| * |fpRat r| * |fpRat b|) ≤ 1089 := by
  rw [estimateClose, if_pos rfl, Bool.and_eq_true, Dyadic.le_iff, Dyadic.le_iff]
  simp only [Dyadic.toRat_mul, Dyadic.toRat_ofNat, fpAbs_toRat]
  push_cast
  rfl

/-! ## What a close value estimates -/

/-- The error of a value of the sign of the reciprocal is that of its magnitude. -/
theorem recip_error_eq {r b : DWord} (hs : fpSign r = fpSign b) :
    |fpRat r - 1 / fpRat b| = |(|fpRat r| - |1 / fpRat b|)| := by
  have hb : 1 / fpRat b = (if fpSign b then -1 else 1) * |1 / fpRat b| := by
    rw [abs_div, abs_one]
    conv_lhs => rw [fpRat_sign b]
    cases fpSign b
    · simp
    · simp [div_neg]
  rw [hb, fpRat_sign r, hs, ← mul_sub, abs_mul]
  cases fpSign b <;> simp

/-- A magnitude within 1/32 of the reciprocal root, as a factor. -/
theorem rsqrt_error_le {r x : ℝ} (hx : 0 < x) (hlo : 31 / 32 ≤ r * √x) (hhi : r * √x ≤ 33 / 32) :
    |r - 1 / √x| ≤ 1 / √x / 32 := by
  have hp : 0 < √x := Real.sqrt_pos.mpr hx
  have he : r - 1 / √x = (r * √x - 1) / √x := by field_simp
  have hr : 1 / √x / 32 = 1 / 32 / √x := by ring
  rw [he, hr, abs_div, abs_of_pos hp]
  exact div_le_div_of_nonneg_right (abs_le.mpr ⟨by linarith, by linarith⟩) hp.le

/-- A positive pattern whose product with the root is near 1 is an estimate of the reciprocal root. -/
theorem rsqrtEstimate_of_product {r b : DWord} (hr : fpExp r ≠ 2047) (hs : fpSign r = false) (hb : 0 < fpRat b)
    (hlo : 31 / 32 ≤ |(fpRat r : ℝ)| * √(fpRat b : ℝ)) (hhi : |(fpRat r : ℝ)| * √(fpRat b : ℝ) ≤ 33 / 32) :
    RsqrtEstimate r b := by
  have hb' : (0 : ℝ) < fpRat b := by exact_mod_cast hb
  have hz : isZero r = false := by
    rw [← Bool.not_eq_true, ← fpRat_eq_zero_iff]
    intro h0
    rw [h0] at hlo
    norm_num at hlo
  have habs : |(fpRat r : ℝ)| = fpRat r := by
    rw [← Rat.cast_abs, fpRat_sign r, hs]
    simp
  rw [habs] at hlo hhi
  exact ⟨(isNumber_iff r).mpr ⟨(finite_iff r).mpr hr, hz⟩, rsqrt_error_le hb' hlo hhi⟩

/-! ## The draws that keep the contract -/

/-- `r` keeps the contract of an estimate of `b`, a nonzero number (R681). -/
structure IsEstimate (fmt : FpFormat) (rsqrt : Bool) (b r : DWord) : Prop where
  sign  : fpSign r = fpSign b
  nan   : isNaN r = false
  takes : fmt.Takes r
  recip : rsqrt = false → RecipEstimate fmt r b
  root  : rsqrt = true → RsqrtEstimate r b

theorem fpRat_pos_of_sign {b : DWord} (hz : isZero b = false) (hs : fpSign b = false) : 0 < fpRat b := by
  have h := abs_fpRat_pos hz
  rw [fpRat_sign b, hs]
  simpa using h

theorem recipEstimate_of_close (fmt : FpFormat) {r b : DWord} (hb : isZero b = false) (hs : fpSign r = fpSign b)
    (hr : isNumber r = true) (h : estimateClose false r b = true) : RecipEstimate fmt r b := by
  obtain ⟨hlo, hhi⟩ := (estimateClose_recip_iff r b).mp h
  have hp := abs_fpRat_pos hb
  have he : |fpRat r| - |1 / fpRat b| = (|fpRat r| * |fpRat b| - 1) / |fpRat b| := by
    rw [abs_div, abs_one]
    field_simp
  have hu : |1 / fpRat b| / 256 = 1 / 256 / |fpRat b| := by
    rw [abs_div, abs_one]
    ring
  refine .inl ⟨hr, ?_⟩
  rw [recip_error_eq hs, he, hu, abs_div, abs_abs]
  exact div_le_div_of_nonneg_right (abs_le.mpr ⟨by linarith, by linarith⟩) hp.le

theorem rsqrtEstimate_of_close {r b : DWord} (hb : isZero b = false) (hsb : fpSign b = false) (hs : fpSign r = false)
    (hr : isNumber r = true) (h : estimateClose true r b = true) : RsqrtEstimate r b := by
  obtain ⟨hlo, hhi⟩ := (estimateClose_rsqrt_iff r b).mp h
  have hp := fpRat_pos_of_sign hb hsb
  rw [abs_of_pos hp] at hlo hhi
  have hlo' : (961 : ℝ) ≤ 1024 * (|(fpRat r : ℝ)| * |(fpRat r : ℝ)| * fpRat b) := by exact_mod_cast hlo
  have hhi' : 1024 * (|(fpRat r : ℝ)| * |(fpRat r : ℝ)| * fpRat b) ≤ (1089 : ℝ) := by exact_mod_cast hhi
  have hsq : (|(fpRat r : ℝ)| * √(fpRat b : ℝ)) ^ 2 =
      |(fpRat r : ℝ)| * |(fpRat r : ℝ)| * fpRat b := by
    rw [mul_pow, Real.sq_sqrt (by exact_mod_cast hp.le)]
    ring
  have hnn : 0 ≤ |(fpRat r : ℝ)| * √(fpRat b : ℝ) := by positivity
  refine rsqrtEstimate_of_product (fpExp_of_finite ((isNumber_iff r).mp hr).1) hs hp ?_ ?_
  · exact le_of_sq_le_sq (by rw [hsq]; linarith) hnn
  · exact le_of_sq_le_sq (by rw [hsq]; linarith) (by norm_num)

/-- A pattern that is no NaN, no infinity and no zero is a number. -/
theorem isNumber_of_rest {r : DWord} (hn : isNaN r = false) (h : ¬ (isInf r = true ∨ isZero r = true)) :
    isNumber r = true := by
  rw [not_or, Bool.not_eq_true, Bool.not_eq_true] at h
  exact (isNumber_iff r).mpr ⟨⟨hn, h.1⟩, h.2⟩

/-- The model's test of a draw is the contract. -/
theorem isEstimate_of_allowed {fmt : FpFormat} (hf : fmt.Standard) {rsqrt : Bool} {b r : DWord} (hb : isZero b = false)
    (hroot : rsqrt = true → fpSign b = false) (h : estimateAllowed fmt rsqrt r b = true) : IsEstimate fmt rsqrt b r := by
  simp only [estimateAllowed, Bool.and_eq_true, beq_iff_eq, Bool.or_eq_true, Bool.not_eq_true'] at h
  obtain ⟨⟨⟨hs, hrep⟩, hn⟩, hval⟩ := h
  rw [recipSmall_eq fmt hb, recipLarge_eq hf hb] at hval
  refine ⟨hs, hn, fun hp => hrep.resolve_left (by omega), ?_, ?_⟩
  · rintro rfl
    split at hval
    · rename_i hrange
      have hrange' : recipTiny fmt b = true ∨ recipHuge fmt b = true := by simpa using hrange
      by_cases hspecial : isInf r = true ∨ isZero r = true ∨ fpExp r < fmt.minExp
      · exact .inr ⟨hrange', hspecial⟩
      · have hclose : estimateClose false r b = true := by
          simp only [Bool.or_eq_true, decide_eq_true_eq] at hval
          tauto
        exact recipEstimate_of_close fmt hb hs (isNumber_of_rest hn (by tauto)) hclose
    · obtain ⟨hnum, hclose⟩ := Bool.and_eq_true_iff.mp hval
      exact recipEstimate_of_close fmt hb hs hnum hclose
  · rintro rfl
    rw [if_neg (by simp), Bool.and_eq_true] at hval
    have hsb := hroot rfl
    exact rsqrtEstimate_of_close hb hsb (hs.trans hsb) hval.1 hval.2

end Sys2Proof.Machine
end

section
/-!
PROOFS, family 49_optional.md.  What a rounding to nearest delivers, against the number rounded (47_fp_model.md
R523, R546 to R556).
-/
namespace Sys2Proof.Machine

/-! ## Numbers that single format represents -/

section
variable {x : DWord} {m k : ℕ} (h : fpUnits x = m * 2 ^ k)
include h

/-- The exponent of a nonzero number below 2^128 that is a multiple of `2^-149`. -/
theorem fpExp_of_units (hpos : 0 < m) (hk : 925 ≤ k) (hx : fpUnits x < 2 ^ 1202) :
    874 ≤ fpExp x ∧ fpExp x ≤ 1150 := by
  have hlo : 874 ≤ fpExp x := by
    by_contra hlt
    have hpow : 2 ^ k < 2 ^ (53 + (fpExp x - 1)) :=
      calc 2 ^ k ≤ m * 2 ^ k := Nat.le_mul_of_pos_left _ hpos
        _ = fpSig x * 2 ^ (fpExp x - 1) := h.symm
        _ < 2 ^ 53 * 2 ^ (fpExp x - 1) := Nat.mul_lt_mul_of_pos_right (fpSig_lt x) (by positivity)
        _ = 2 ^ (53 + (fpExp x - 1)) := (pow_add ..).symm
    have := (Nat.pow_lt_pow_iff_right (by decide)).mp hpow
    omega
  have hsig : fpSig x = 2 ^ 52 + fpFrac x := if_neg (by omega)
  have hpow : 2 ^ (52 + (fpExp x - 1)) < 2 ^ 1202 :=
    calc 2 ^ (52 + (fpExp x - 1)) = 2 ^ 52 * 2 ^ (fpExp x - 1) := pow_add ..
      _ ≤ fpSig x * 2 ^ (fpExp x - 1) := Nat.mul_le_mul_right _ (by omega)
      _ < 2 ^ 1202 := hx
  have := (Nat.pow_lt_pow_iff_right (by decide)).mp hpow
  exact ⟨hlo, by omega⟩

/-- The fraction has the trailing zeros of the units beyond those of its own place. -/
theorem fpFrac_mod_of_units (hsig : fpSig x = 2 ^ 52 + fpFrac x) {d : ℕ} (hd : fpExp x - 1 + d ≤ k) (h52 : d ≤ 52) :
    fpFrac x % 2 ^ d = 0 := by
  have hs : fpSig x = m * 2 ^ (k - (fpExp x - 1)) := by
    have hp : 2 ^ (fpExp x - 1) ≠ 0 := by positivity
    rw [← Nat.mul_left_inj hp, mul_assoc, ← pow_add, Nat.sub_add_cancel (by omega)]
    exact h
  have hds : 2 ^ d ∣ 2 ^ 52 + fpFrac x := by
    rw [← hsig, hs]
    exact Dvd.dvd.mul_left (pow_dvd_pow 2 (by omega)) m
  exact Nat.mod_eq_zero_of_dvd ((Nat.dvd_add_right (pow_dvd_pow 2 h52)).mp hds)

/-- A number below 2^128 of at most 24 bits, in units of `2^-149` or more, is one of single format (47_fp_model.md R512). -/
theorem repSingle_of_units (hm : m ≤ 2 ^ 24) (hk : 925 ≤ k) (hx : fpUnits x < 2 ^ 1202) : repSingle x = true := by
  have hfrac := fpFrac_lt x
  rw [repSingle_iff]
  rcases Nat.eq_zero_or_pos m with rfl | hpos
  · have hz := (fpUnits_eq_zero_iff x).mp (by rw [h, Nat.zero_mul])
    exact .inl (by omega)
  obtain ⟨hlo, hhi⟩ := fpExp_of_units h hpos hk hx
  have hsig : fpSig x = 2 ^ 52 + fpFrac x := if_neg (by omega)
  rcases Nat.lt_or_ge 896 (fpExp x) with hn | hn
  · refine .inr (.inr (.inl ⟨⟨hn, hhi⟩, ?_⟩))
    rcases Nat.lt_or_ge k (fpExp x - 1 + 29) with hshort | hlong
    · have hle : fpSig x * 2 ^ (fpExp x - 1) ≤ 2 ^ 52 * 2 ^ (fpExp x - 1) :=
        calc fpSig x * 2 ^ (fpExp x - 1) = m * 2 ^ k := h
          _ ≤ 2 ^ 24 * 2 ^ (fpExp x - 1 + 28) := Nat.mul_le_mul hm (Nat.pow_le_pow_right (by decide) (by omega))
          _ = 2 ^ 52 * 2 ^ (fpExp x - 1) := by rw [pow_add, ← mul_assoc, mul_right_comm, ← pow_add]
      have := Nat.le_of_mul_le_mul_right hle (by positivity)
      have h0 : fpFrac x = 0 := by omega
      rw [h0]
      rfl
    · exact fpFrac_mod_of_units h hsig hlong (by decide)
  · exact .inr (.inr (.inr ⟨⟨hlo, hn⟩, fpFrac_mod_of_units h hsig (by omega) (by omega)⟩))

end

/-- The same of a number over the reals. -/
theorem repSingle_of_magnitude {x : DWord} {m : ℕ} {q : ℤ} (h : |fpRat x| = m * (2 : ℚ) ^ q) (hm : m ≤ 2 ^ 24)
    (hq : -149 ≤ q) (hx : |fpRat x| < (2 : ℚ) ^ (128 : ℤ)) : repSingle x = true := by
  have hp : (0 : ℚ) < 2 ^ (-1074 : ℤ) := by positivity
  have hk : q = (q + 1074).toNat + (-1074) := by omega
  have hmul : (fpUnits x : ℚ) = (m * 2 ^ (q + 1074).toNat : ℕ) := by
    rw [abs_fpRat_units, hk, zpow_add₀ two_ne_zero, ← mul_assoc, mul_left_inj' hp.ne', zpow_natCast] at h
    rw [h]
    push_cast
    rfl
  have hlt : (fpUnits x : ℚ) < (2 ^ 1202 : ℕ) := by
    have h128 : (2 : ℚ) ^ (128 : ℤ) = (2 ^ 1202 : ℕ) * 2 ^ (-1074 : ℤ) := by
      rw [Nat.cast_pow, Nat.cast_ofNat, ← zpow_natCast, ← zpow_add₀ two_ne_zero]
      rfl
    rw [abs_fpRat_units, h128] at hx
    exact lt_of_mul_lt_mul_right hx hp.le
  exact repSingle_of_units (Nat.cast_injective hmul) hm (by omega) (by exact_mod_cast hlt)

/-! ## Rounding to nearest with all exceptions disabled -/

/-- A rounded magnitude is within a unit of the exact one. -/
theorem RoundsAt.abs_sub_le {s : Bool} {v : ℝ} {q : ℤ} {mode : BitVec 2} {r : Rounded} (h : RoundsAt s v q mode r) :
    |r.units * (2 : ℝ) ^ q - v| ≤ (2 : ℝ) ^ q := by
  obtain ⟨n, rem, hv, h0, h1, -, -, hu⟩ := h
  rw [hu, hv, abs_le]
  split
  · push_cast
    constructor <;> linarith
  · constructor <;> linarith

/-- `x` is the rounding of `y` within range: near `y`, or near a Tiny `y` by what the least normalized number allows. -/
structure NearTo (fmt : FpFormat) (y : ℝ) (x : DWord) : Prop where
  finite : fpExp x ≠ 2047
  sign   : fpSign x = true ↔ y < 0
  error  : |(|(fpRat x : ℝ)| - |y|)| ≤ max |y| ((2 : ℝ) ^ fmt.emin) / 2 ^ 23
  takes  : fmt.Takes x

section
variable {fmt : FpFormat} (hf : fmt.Standard) {y : ℝ} {sg : Bool} {e : ℤ} {r : Rounded} (h : RoundsIn fmt 0 y sg e r)
include hf h

/-- The unit of the rounding is small against the number rounded or against the least normalized number. -/
theorem RoundsIn.unit_le : (2 : ℝ) ^ fmt.unit 0 e ≤ max |y| ((2 : ℝ) ^ fmt.emin) / 2 ^ 23 := by
  have hp : (24 : ℤ) ≤ fmt.p := by rcases hf.known with rfl | rfl <;> decide
  have small : ∀ k : ℤ, (2 : ℝ) ^ (k - ((fmt.p : ℤ) - 1)) ≤ (2 : ℝ) ^ k / 2 ^ 23 := fun k => by
    have h23 : (2 : ℝ) ^ k / 2 ^ 23 = 2 ^ (k - 23) := by rw [zpow_sub₀ two_ne_zero]; rfl
    rw [h23]
    exact zpow_le_zpow_right₀ one_le_two (by omega)
  rcases lt_or_ge e fmt.emin with he | he
  · rw [FpFormat.unit_denormal he rfl]
    exact (small _).trans (div_le_div_of_nonneg_right (le_max_right _ _) (by positivity))
  · rw [FpFormat.unit_of_emin_le he]
    exact (small e).trans (div_le_div_of_nonneg_right (h.lower.trans (le_max_left _ _)) (by positivity))

/-- A rounding that stays in range is near. -/
theorem RoundsIn.nearTo {x : DWord} (hx : HasMagnitude x sg r.units (fmt.unit 0 e))
    (hlt : r.units * (2 : ℝ) ^ fmt.unit 0 e < (2 : ℝ) ^ (fmt.emax + 1)) : NearTo fmt y x := by
  obtain ⟨hnan, hinf, hsg, hmag⟩ := hx
  have hreal : |(fpRat x : ℝ)| = r.units * (2 : ℝ) ^ fmt.unit 0 e := by
    rw [← Rat.cast_abs, hmag]
    push_cast
    rfl
  refine ⟨(finite_iff x).mp ⟨hnan, hinf⟩, by rw [hsg, h.sign], ?_, fun hp => ?_⟩
  · rw [hreal]
    exact h.rounds.abs_sub_le.trans (h.unit_le hf)
  · have hsp : fmt = .sp := hf.known.resolve_left fun hd => by rw [hd] at hp; exact absurd hp (by decide)
    subst hsp
    have hemin : FpFormat.sp.emin = -126 := rfl
    have hpp : (FpFormat.sp.p : ℤ) = 24 := rfl
    have bits : r.units ≤ 2 ^ 24 ∧ -149 ≤ FpFormat.sp.unit 0 e := by
      rcases lt_or_ge e FpFormat.sp.emin with he | he
      · have hu := h.denormal_units hf.p_pos he rfl
        have hu' : r.units ≤ 2 ^ 23 := hu
        refine ⟨by omega, ?_⟩
        rw [FpFormat.unit_denormal he rfl]
        omega
      · have hq := FpFormat.unit_of_emin_le (f := 0) he
        refine ⟨(h.units_bounds hf.p_pos hq).2.1, ?_⟩
        rw [hq]
        omega
    refine repSingle_of_magnitude hmag bits.1 bits.2 ?_
    rw [hmag, ← Rat.cast_lt (K := ℝ)]
    rw [Rat.cast_mul, Rat.cast_natCast, Rat.cast_zpow, Rat.cast_zpow, Rat.cast_ofNat]
    exact hlt

/-- A rounding that leaves the range has its number near the end of it. -/
theorem RoundsIn.near_end (he : fmt.emin ≤ e) (hge : (2 : ℝ) ^ (fmt.emax + 1) ≤ r.units * (2 : ℝ) ^ fmt.unit 0 e) :
    (2 : ℝ) ^ (fmt.emax + 1) ≤ |y| * (257 / 256) := by
  have herr := (abs_le.mp h.rounds.abs_sub_le).2
  have hunit := h.unit_le hf
  rw [max_eq_left ((zpow_le_zpow_right₀ one_le_two he).trans h.lower)] at hunit
  have hy := abs_nonneg y
  norm_num at hunit
  linarith

end

/-- A rounding to nearest, all exceptions being disabled: near the exact number, or an infinity where the number is near the
end of the range or past it. -/
theorem RoundedAs.nearest {fmt : FpFormat} (hf : fmt.Standard) {y : ℝ} {o : RoundedOutcome} (h : RoundedAs fmt y 0 o) :
    NearTo fmt y o.value ∨
      (∃ sg, o.value = fpInf sg ∧ (sg = true ↔ y < 0)) ∧ (2 : ℝ) ^ (fmt.emax + 1) ≤ |y| * (257 / 256) := by
  obtain ⟨sg, e, r, hsg, hlo, hhi, hr, denormal, -, -, saturated, inRange⟩ := h
  have hin : RoundsIn fmt 0 y sg e r := ⟨hsg, hlo, hhi, hr⟩
  rcases lt_or_ge e fmt.emin with he | he
  · have hmag : HasMagnitude o.value sg r.units (fmt.unit 0 e + 0) := (denormal he rfl).1.1
    rw [add_zero] at hmag
    refine .inl (hin.nearTo hf hmag ?_)
    have hp := hf.p_pos
    have hmax := hf.emin_le
    have hunits : (r.units : ℝ) ≤ 2 ^ (fmt.p - 1) := by exact_mod_cast hin.denormal_units hf.p_pos he rfl
    rw [FpFormat.unit_denormal he rfl]
    calc (r.units : ℝ) * 2 ^ (fmt.emin - ((fmt.p : ℤ) - 1))
        ≤ 2 ^ (fmt.p - 1) * 2 ^ (fmt.emin - ((fmt.p : ℤ) - 1)) := mul_le_mul_of_nonneg_right hunits (by positivity)
      _ = 2 ^ fmt.emin := by
        rw [← zpow_natCast, ← zpow_add₀ two_ne_zero, Nat.cast_sub hp, Nat.cast_one, add_sub_cancel]
      _ < 2 ^ (fmt.emax + 1) := zpow_lt_zpow_right₀ one_lt_two (by omega)
  · rcases lt_or_ge (r.units * (2 : ℝ) ^ fmt.unit 0 e) ((2 : ℝ) ^ (fmt.emax + 1)) with hlt | hge
    · have hmag : HasMagnitude o.value sg r.units (fmt.unit 0 e + 0) :=
        (inRange he fun ho => absurd ho.2 (not_le.mpr hlt)).1.1
      rw [add_zero] at hmag
      exact .inl (hin.nearTo hf hmag hlt)
    · have hval : o.value = overflowTable fmt sg 0 := (saturated ⟨he, hge⟩ rfl).1
      exact .inr ⟨⟨sg, hval, hsg⟩, hin.near_end hf he hge⟩

end Sys2Proof.Machine
end

section
/-!
PROOFS, family 49_optional.md.  The nearest results, for which a draw that breaks the contract stands, keep it (49_optional.md
R681; log entry 19).
-/
namespace Sys2Proof.Machine

/-! ## The nearest reciprocal -/

theorem fpRat_fpOne : fpRat fpOne = 1 := by
  have h : fpVal fpOne = ⟨2 ^ 52, -52⟩ := by decide
  rw [fpRat, h]
  norm_num

/-- What stands for a reciprocal is its rounding. -/
theorem estimateNearest_recip {fmt : FpFormat} (hf : fmt.Standard) {b : DWord} (hb : isNumber b = true) (ht : fmt.Takes b) :
    ∃ o, RoundedAs fmt (1 / fpRat b) 0 o ∧ estimateNearest fmt false b = o.value := by
  obtain ⟨fb, zb⟩ := (isNumber_iff b).mp hb
  have hsig : fpSig fpOne ≠ 0 ∧ fpSig b ≠ 0 := ⟨by decide, fun h0 => by simp [(isZero_iff b).mpr h0] at zb⟩
  have hd := fpQuotient_describes fpOne b hsig.2
  have hsign := quotient_neg_iff (a := fpOne) (by decide) zb
  have hone : (fpSign fpOne != fpSign b) = fpSign b := Bool.false_bne _
  have long := fpQuotient_long hsig.1 hsig.2
  rw [fpRat_fpOne, Rat.cast_one] at hd hsign
  rw [hone] at hsign
  have hreach := hf.reaches_quotient hf.spans_one one_ne_zero (hf.spans ht (fpExp_of_finite fb)) (fpRat_ne_zero hb)
  obtain ⟨o, ho, hr⟩ := roundResult_rounded hf hd (hreach.roundable hd (by omega) fun _ => long) hsign 0 false
  exact ⟨o, ho, congrArg (Option.getD · 0) hr.value⟩

theorem recip_neg_iff {b : DWord} (hb : isZero b = false) : 1 / (fpRat b : ℝ) < 0 ↔ fpSign b = true := by
  rw [one_div, inv_lt_zero, Rat.cast_lt_zero]
  exact fpRat_neg_iff hb

/-- A finite pattern of the sign of the reciprocal whose magnitude is within one part in 256 of it. -/
theorem recipEstimate_of_error (fmt : FpFormat) {x b : DWord} (hb : isNumber b = true) (hx : fpExp x ≠ 2047)
    (hs : fpSign x = fpSign b) (h : |(|(fpRat x : ℝ)| - |1 / (fpRat b : ℝ)|)| ≤ |1 / (fpRat b : ℝ)| / 256) :
    RecipEstimate fmt x b := by
  have hp : 0 < |1 / (fpRat b : ℝ)| := abs_pos.mpr (one_div_ne_zero (fpRat_ne_zero hb))
  have hz : isZero x = false := by
    rw [← Bool.not_eq_true, ← fpRat_eq_zero_iff]
    intro h0
    rw [h0, Rat.cast_zero, abs_zero, zero_sub, abs_neg, abs_abs] at h
    linarith
  refine .inl ⟨(isNumber_iff x).mpr ⟨(finite_iff x).mpr hx, hz⟩, ?_⟩
  rw [recip_error_eq hs]
  exact_mod_cast h

theorem recipTiny_of_lt {fmt : FpFormat} {b : DWord} (h : |1 / (fpRat b : ℝ)| < (2 : ℝ) ^ fmt.emin) :
    recipTiny fmt b = true := by
  have h' : |1 / fpRat b| < (2 : ℚ) ^ fmt.emin := by
    rw [← Rat.cast_lt (K := ℝ), Rat.cast_abs, Rat.cast_div, Rat.cast_one, Rat.cast_zpow, Rat.cast_ofNat]
    exact h
  have := abs_nonneg (1 / fpRat b)
  exact decide_eq_true (by linarith)

theorem FpFormat.Standard.maxFin_lt {fmt : FpFormat} (hf : fmt.Standard) :
    (fpRat fmt.maxFin : ℝ) < (2 : ℝ) ^ (fmt.emax + 1) := by
  have he : fpExponent fmt.maxFin = fmt.emax := by rcases hf.known with rfl | rfl <;> decide
  have h := abs_fpRat_lt fmt.maxFin
  rw [he] at h
  exact (le_abs_self _).trans_lt h

theorem recipHuge_of_le {fmt : FpFormat} (hf : fmt.Standard) {b : DWord}
    (h : (2 : ℝ) ^ (fmt.emax + 1) ≤ |1 / (fpRat b : ℝ)| * (257 / 256)) : recipHuge fmt b = true := by
  have hlt : (fpRat fmt.maxFin : ℝ) < |1 / (fpRat b : ℝ)| * (257 / 256) := hf.maxFin_lt.trans_le h
  refine decide_eq_true ?_
  rw [← Rat.cast_lt (K := ℝ)]
  push_cast
  exact hlt

/-- A pattern of at least the least exponent of the precision is at least its least normalized number. -/
theorem FpFormat.Standard.le_abs_of_minExp {fmt : FpFormat} (hf : fmt.Standard) {x : DWord} (h : ¬ fpExp x < fmt.minExp) :
    (2 : ℝ) ^ fmt.emin ≤ |(fpRat x : ℝ)| := by
  have hmin : 0 < fmt.minExp ∧ fmt.emin = (fmt.minExp : ℤ) - 1023 := by rcases hf.known with rfl | rfl <;> decide
  refine (zpow_le_zpow_right₀ one_le_two ?_).trans (le_abs_fpRat (x := x) (by omega))
  omega

/-- A number near the reciprocal keeps the contract. -/
theorem NearTo.recipEstimate {fmt : FpFormat} (hf : fmt.Standard) {x b : DWord} (hb : isNumber b = true)
    (h : NearTo fmt (1 / fpRat b) x) (hs : fpSign x = fpSign b) : RecipEstimate fmt x b := by
  obtain ⟨hfin, -, herr, -⟩ := h
  have hy := abs_nonneg (1 / (fpRat b : ℝ))
  rcases le_or_gt ((2 : ℝ) ^ fmt.emin) |1 / (fpRat b : ℝ)| with hle | hlt
  · rw [max_eq_left hle] at herr
    exact recipEstimate_of_error fmt hb hfin hs (herr.trans (div_le_div_of_nonneg_left hy (by norm_num) (by norm_num)))
  · by_cases hmin : fpExp x < fmt.minExp
    · exact .inr ⟨.inl (recipTiny_of_lt hlt), .inr (.inr hmin)⟩
    · have hx := hf.le_abs_of_minExp hmin
      rw [max_eq_right hlt.le] at herr
      refine recipEstimate_of_error fmt hb hfin hs (herr.trans ?_)
      have hup := (abs_le.mp herr).2
      have hle : |1 / (fpRat b : ℝ)| ≤ 2 ^ fmt.emin := hlt.le
      revert hup
      generalize |1 / (fpRat b : ℝ)| = w at *
      norm_num
      intro hup
      linarith

theorem repSingle_fpInf (sg : Bool) : repSingle (fpInf sg) = true := by cases sg <;> decide

/-- The nearest reciprocal keeps the contract. -/
theorem isEstimate_nearest_recip {fmt : FpFormat} (hf : fmt.Standard) {b : DWord} (hb : isNumber b = true)
    (ht : fmt.Takes b) : IsEstimate fmt false b (estimateNearest fmt false b) := by
  obtain ⟨o, ho, hx⟩ := estimateNearest_recip hf hb ht
  have hneg := recip_neg_iff ((isNumber_iff b).mp hb).2
  rw [hx]
  rcases ho.nearest hf with hnear | ⟨⟨sg, hval, hsg⟩, hend⟩
  · have hs : fpSign o.value = fpSign b := by rw [Bool.eq_iff_iff, hnear.sign, hneg]
    exact ⟨hs, ((finite_iff _).mpr hnear.finite).1, hnear.takes, fun _ => hnear.recipEstimate hf hb hs, (nomatch ·)⟩
  · have hs : sg = fpSign b := by rw [Bool.eq_iff_iff, hsg, hneg]
    rw [hval]
    exact ⟨(fpSign_fpInf sg).trans hs, isNaN_fpInf sg, fun _ => repSingle_fpInf sg,
      fun _ => .inr ⟨.inr (recipHuge_of_le hf hend), .inl (isInf_fpInf sg)⟩, (nomatch ·)⟩

/-! ## The nearest reciprocal square root -/

theorem isqrtBits_lt (n k r : Nat) : isqrtBits n k r < r + 2 ^ k := by
  induction k generalizing r with
  | zero => exact Nat.lt_succ_self r
  | succ k ih =>
    rw [isqrtBits, pow_succ]
    split
    · have := ih (r + 2 ^ k)
      omega
    · have := ih r
      omega

theorem fpRoot_sig_lt (b : DWord) : (fpRoot b).sig < 2 ^ 92 := by
  unfold fpRoot
  dsimp only
  generalize fpSig b * _ = n
  have h := isqrtBits_lt n 92 0
  rw [Nat.zero_add] at h
  exact h

theorem Magnitude.Describes.bounds {m : Magnitude} {v : ℝ} (h : m.Describes v) :
    m.sig * (2 : ℝ) ^ m.exp ≤ v ∧ v < (m.sig + 1) * (2 : ℝ) ^ m.exp := by
  have hu : (0 : ℝ) < 2 ^ m.exp := by positivity
  unfold Magnitude.Describes at h
  split at h
  · exact ⟨h.1.le, h.2⟩
  · rw [h]
    exact ⟨le_rfl, by linarith⟩

/-- The number in the middle of those that the magnitude of the reciprocal root describes. -/
noncomputable def rsqrtMiddle (b : DWord) : ℝ :=
  ((fpRsqrtMagnitude b).sig + 1 / 2) * (2 : ℝ) ^ (fpRsqrtMagnitude b).exp

theorem rsqrtMiddle_pos (b : DWord) : 0 < rsqrtMiddle b := by
  unfold rsqrtMiddle
  positivity

theorem fpRsqrtMagnitude_describes (b : DWord) : (fpRsqrtMagnitude b).Describes |rsqrtMiddle b| := by
  have hu : (0 : ℝ) < 2 ^ (fpRsqrtMagnitude b).exp := by positivity
  rw [abs_of_pos (rsqrtMiddle_pos b), rsqrtMiddle]
  refine (if_pos rfl).mpr ⟨mul_lt_mul_of_pos_right (by linarith) hu, mul_lt_mul_of_pos_right (by linarith) hu⟩

/-- With the bounds of a quotient of 2^192 by a root of 64 to 92 bits, the middle of the quotient times the root is near
2^192. -/
theorem middle_mul_near {S Q ρ : ℝ} (hS : 2 ^ 63 ≤ S) (hS' : S ≤ 2 ^ 92) (hQ0 : 0 ≤ Q) (hQ : Q * S ≤ 2 ^ 192)
    (hQ' : 2 ^ 192 < (Q + 1) * S) (hρ : S ≤ ρ) (hρ' : ρ ≤ S + 1) :
    511 / 512 * 2 ^ 192 ≤ (Q + 1 / 2) * ρ ∧ (Q + 1 / 2) * ρ ≤ 513 / 512 * 2 ^ 192 := by
  have hq : Q * 2 ^ 63 ≤ 2 ^ 192 := (mul_le_mul_of_nonneg_left hS hQ0).trans hQ
  have hlo : (Q + 1 / 2) * S ≤ (Q + 1 / 2) * ρ := mul_le_mul_of_nonneg_left hρ (by linarith)
  have hhi : (Q + 1 / 2) * ρ ≤ (Q + 1 / 2) * (S + 1) := mul_le_mul_of_nonneg_left hρ' (by linarith)
  norm_num at *
  constructor <;> linarith

section
variable {b : DWord} (hb : isNumber b = true)
include hb

theorem fpSig_ne_zero_of_isNumber : fpSig b ≠ 0 := fun h0 => by
  have hz := ((isNumber_iff b).mp hb).2
  rw [(isZero_iff b).mpr h0] at hz
  cases hz

/-- The middle is near the reciprocal root. -/
theorem rsqrtMiddle_mul_root :
    511 / 512 ≤ rsqrtMiddle b * √|(fpRat b : ℝ)| ∧ rsqrtMiddle b * √|(fpRat b : ℝ)| ≤ 513 / 512 := by
  obtain ⟨hd, hlong⟩ := fpRoot_describes (fpSig_ne_zero_of_isNumber hb)
  obtain ⟨hlo, hhi⟩ := hd.bounds
  have hu : (0 : ℝ) < 2 ^ (fpRoot b).exp := by positivity
  have hpos : 0 < (fpRoot b).sig := by omega
  have hquot : 2 ^ 192 / (fpRoot b).sig * (fpRoot b).sig ≤ 2 ^ 192 := Nat.div_mul_le_self _ _
  have hquot' : 2 ^ 192 < (2 ^ 192 / (fpRoot b).sig + 1) * (fpRoot b).sig := by
    rw [mul_comm]
    exact Nat.lt_mul_div_succ _ hpos
  have hsig := fpRoot_sig_lt b
  have heq : rsqrtMiddle b * √|(fpRat b : ℝ)| =
      ((2 ^ 192 / (fpRoot b).sig : ℕ) + 1 / 2) * (√|(fpRat b : ℝ)| / 2 ^ (fpRoot b).exp) / 2 ^ 192 := by
    have hexp : (2 : ℝ) ^ (-192 - (fpRoot b).exp) = 1 / 2 ^ 192 / 2 ^ (fpRoot b).exp := by
      rw [zpow_sub₀ two_ne_zero, zpow_neg, one_div]
      rfl
    rw [rsqrtMiddle, fpRsqrtMagnitude, hexp]
    ring
  have hnear := middle_mul_near (S := (fpRoot b).sig) (Q := (2 ^ 192 / (fpRoot b).sig : ℕ))
    (ρ := √|(fpRat b : ℝ)| / 2 ^ (fpRoot b).exp) (by exact_mod_cast hlong) (by exact_mod_cast hsig.le)
    (Nat.cast_nonneg _) (by exact_mod_cast hquot) (by exact_mod_cast hquot') ((le_div_iff₀ hu).mpr hlo)
    ((div_le_iff₀ hu).mpr hhi.le)
  have hp : (0 : ℝ) < 2 ^ 192 := by positivity
  rw [heq, le_div_iff₀ hp, div_le_iff₀ hp]
  exact hnear

end

/-- The root of a nonzero operand is within a normalized reciprocal of the precision. -/
theorem FpFormat.Standard.root_bounds {fmt : FpFormat} (hf : fmt.Standard) {x : ℝ} (hx : fmt.Spans x) (hx0 : x ≠ 0) :
    (2 : ℝ) ^ (-(fmt.emax - 1)) ≤ √|x| ∧ √|x| < 2 ^ (-(fmt.emin + 1)) := by
  have hk : -(fmt.emax - 1) * 2 ≤ fmt.emin - (fmt.p - 1) ∧ fmt.emax + 1 ≤ -(fmt.emin + 1) * 2 := by
    rcases hf.known with rfl | rfl <;> decide
  have sq : ∀ k : ℤ, ((2 : ℝ) ^ k) ^ 2 = 2 ^ (k * 2) := fun k => by rw [← zpow_natCast, ← zpow_mul]; rfl
  rw [Real.le_sqrt' (by positivity), Real.sqrt_lt' (by positivity), sq, sq]
  exact ⟨(zpow_le_zpow_right₀ one_le_two hk.1).trans (hx.multiple.le_abs hx0),
    hx.bound.trans_le (zpow_le_zpow_right₀ one_le_two hk.2)⟩

section
variable {fmt : FpFormat} (hf : fmt.Standard) {b : DWord} (hb : isNumber b = true) (ht : fmt.Takes b)
include hf hb ht

/-- The middle is well within the range of the precision. -/
theorem rsqrtMiddle_range : (2 : ℝ) ^ fmt.emin ≤ rsqrtMiddle b ∧ rsqrtMiddle b * (257 / 256) < 2 ^ (fmt.emax + 1) := by
  have hpos := rsqrtMiddle_pos b
  obtain ⟨hlo, hhi⟩ := rsqrtMiddle_mul_root hb
  obtain ⟨hrlo, hrhi⟩ :=
    hf.root_bounds (hf.spans ht (fpExp_of_finite ((isNumber_iff b).mp hb).1)) (fpRat_ne_zero hb)
  have hmin : (0 : ℝ) < 2 ^ fmt.emin := by positivity
  have hmax : (0 : ℝ) < 2 ^ (fmt.emax + 1) := by positivity
  have hinv : (2 : ℝ) ^ (-(fmt.emin + 1)) * 2 ^ fmt.emin = 1 / 2 := by
    rw [← zpow_add₀ two_ne_zero, neg_add_rev, neg_add_cancel_right, zpow_neg_one, one_div]
  have hinv' : (2 : ℝ) ^ (-(fmt.emax - 1)) * 2 ^ (fmt.emax + 1) = 4 := by
    rw [← zpow_add₀ two_ne_zero, show -(fmt.emax - 1) + (fmt.emax + 1) = 2 by ring]
    norm_num
  constructor
  · have h := hlo.trans (mul_le_mul_of_nonneg_left hrhi.le hpos.le)
    have h' := mul_le_mul_of_nonneg_right h hmin.le
    rw [mul_assoc, hinv] at h'
    linarith
  · have h := (mul_le_mul_of_nonneg_left hrlo hpos.le).trans hhi
    have h' := mul_le_mul_of_nonneg_right h hmax.le
    rw [mul_assoc, hinv'] at h'
    linarith

/-- What stands for a reciprocal root is the rounding of the middle. -/
theorem estimateNearest_rsqrt (hs : fpSign b = false) :
    ∃ o, RoundedAs fmt (rsqrtMiddle b) 0 o ∧ estimateNearest fmt true b = o.value := by
  have hd := fpRsqrtMagnitude_describes b
  obtain ⟨hlo, hhi⟩ := rsqrtMiddle_range hf hb ht
  have hpos := rsqrtMiddle_pos b
  have hlong : 2 ^ 53 ≤ (fpRsqrtMagnitude b).sig := by
    have hroot := (fpRoot_describes (fpSig_ne_zero_of_isNumber hb)).2
    have hsig := fpRoot_sig_lt b
    refine (Nat.le_div_iff_mul_le (by omega)).mpr ?_
    omega
  have hreach : fmt.Reaches (rsqrtMiddle b) := by
    have hk : -1022 - fmt.adj ≤ fmt.emin ∧ fmt.emax + 1 ≤ 1023 + fmt.adj := by
      rcases hf.known with rfl | rfl <;> decide
    rw [FpFormat.Reaches, abs_of_pos hpos]
    exact ⟨(zpow_le_zpow_right₀ one_le_two hk.1).trans hlo,
      (show rsqrtMiddle b < 2 ^ (fmt.emax + 1) by linarith).trans_le (zpow_le_zpow_right₀ one_le_two hk.2)⟩
  have hsign : fpSign b = true ↔ rsqrtMiddle b < 0 := by
    rw [hs]
    exact ⟨(nomatch ·), fun h => absurd h hpos.not_gt⟩
  obtain ⟨o, ho, hr⟩ := roundResult_rounded hf hd (hreach.roundable hd (by omega) fun _ => hlong) hsign 0 false
  exact ⟨o, ho, congrArg (Option.getD · 0) hr.value⟩

/-- The nearest reciprocal root keeps the contract. -/
theorem isEstimate_nearest_rsqrt (hs : fpSign b = false) : IsEstimate fmt true b (estimateNearest fmt true b) := by
  obtain ⟨o, ho, hx⟩ := estimateNearest_rsqrt hf hb ht hs
  have hpos := rsqrtMiddle_pos b
  obtain ⟨hlo, hhi⟩ := rsqrtMiddle_range hf hb ht
  obtain ⟨hplo, hphi⟩ := rsqrtMiddle_mul_root hb
  have hb0 := fpRat_pos_of_sign ((isNumber_iff b).mp hb).2 hs
  rw [abs_of_pos (Rat.cast_pos.mpr hb0)] at hplo hphi
  rw [hx]
  rcases ho.nearest hf with hnear | ⟨-, hend⟩
  · have hxs : fpSign o.value = false := by
      rw [← Bool.not_eq_true, hnear.sign, not_lt]
      exact hpos.le
    have herr := hnear.error
    rw [abs_of_pos hpos, max_eq_left hlo] at herr
    obtain ⟨hel, heh⟩ := abs_le.mp herr
    have hroot : (0 : ℝ) ≤ √(fpRat b : ℝ) := Real.sqrt_nonneg _
    have hl := mul_le_mul_of_nonneg_right hel hroot
    have hh := mul_le_mul_of_nonneg_right heh hroot
    refine ⟨hxs.trans hs.symm, ((finite_iff _).mpr hnear.finite).1, hnear.takes, (nomatch ·), fun _ =>
      rsqrtEstimate_of_product hnear.finite hxs hb0 ?_ ?_⟩
    · rw [sub_mul, neg_mul, div_mul_eq_mul_div] at hl
      norm_num at hl
      linarith
    · rw [sub_mul, div_mul_eq_mul_div] at hh
      norm_num at hh
      linarith
  · rw [abs_of_pos hpos] at hend
    exact absurd hend hhi.not_ge

/-- Whatever the draw, the estimate of a number keeps the contract. -/
theorem isEstimate_estimate {rsqrt : Bool} (hroot : rsqrt = true → fpSign b = false) (u : DWord) :
    IsEstimate fmt rsqrt b (estimate fmt rsqrt b u) := by
  unfold estimate
  split
  · rename_i h
    exact isEstimate_of_allowed hf ((isNumber_iff b).mp hb).2 hroot h
  · cases rsqrt with
    | false => exact isEstimate_nearest_recip hf hb ht
    | true => exact isEstimate_nearest_rsqrt hf hb ht (hroot rfl)

end

end Sys2Proof.Machine
end

section
/-!
PROOFS, family 49_optional.md.  The estimates (O59): what they make of the FPSCR, what they deliver, and the instructions.
-/
namespace Sys2Proof.Machine

/-! ## The FPSCR (49_optional.md R680) -/

/-- XX, FR, FI and FPRF: what an estimate may write besides exception bits (R680). -/
def estimateFree : Word := 0x0207F000

/-- OX, UX, ZX, VXSNAN and VXSQRT: the exception bits that an estimate may set. -/
def estimateBits : Word := 0x1D000200

theorem bitAt_estimateFree :
    ∀ i, i < 32 → bitAt estimateFree i = decide (i = 6 ∨ 13 ≤ i ∧ i ≤ 19) := by decide

theorem bitAt_estimateBits :
    ∀ i, i < 32 → bitAt estimateBits i = decide (3 ≤ i ∧ i ≤ 5 ∨ i = 7 ∨ i = 22) := by decide

theorem bitAt_estimateMask :
    ∀ i, i < 32 → bitAt (0xE207F000 : Word) i = decide (i < 3 ∨ i = 6 ∨ 13 ≤ i ∧ i ≤ 19) := by decide

theorem sameOutside_estimateStatus_free (f : Word) (u : DWord) : SameOutside estimateFree f (estimateStatus f u) := by
  refine ((sameOutside_setFrFi f (bitAt u 63) (bitAt u 62)).mono (by decide)).trans (sameOutside_iff.mpr fun i hi hm => ?_)
  rw [bitAt_estimateFree i hi, decide_eq_false_iff_not] at hm
  rw [estimateStatus, bitAt_setBitAt _ _ hi (by decide), if_neg (by omega)]

/-- FX after the end of an instruction, against the FPSCR it leaves. -/
theorem fpEndStatus_fx_eq {f g : Word} (h : bitAt g 0 = bitAt f 0) : bitAt (fpEndStatus f g) 0 =
    (bitAt f 0 || (fpEndStatus f g &&& ~~~f &&& fpExceptionBits != 0)) := by
  rw [Bool.eq_iff_iff, fpEndStatus_fx, h, Bool.or_eq_true, bne_iff_ne, ne_zero_iff_bit]
  refine or_congr_right (exists_congr fun i => and_congr_right fun hi => ?_)
  rw [bitAt_and, bitAt_and, bitAt_not _ hi, bitAt_fpExceptionBits i hi]
  simp only [Bool.and_eq_true, Bool.not_eq_true', decide_eq_true_eq]
  constructor
  · rintro ⟨hr, hg, hf⟩
    exact ⟨⟨by rwa [fpEndStatus_bit _ _ (by omega) hi], hf⟩, hr⟩
  · rintro ⟨⟨hg, hf⟩, hr⟩
    rw [fpEndStatus_bit _ _ (by omega) hi] at hg
    exact ⟨hr, hg, hf⟩

/-- The FPSCR `g` is `f` with the exception bits `exc` and some of `range`, XX, FR, FI and FPRF being free. -/
def EstimateStatus (exc range f g : Word) : Prop :=
  ∃ m, BitsWithin (exc ||| range) m ∧ BitsWithin m exc ∧ SameOutside estimateFree (f ||| m) g

/-- A bit that `m` may hold, `m` being within the exception bits of an estimate. -/
theorem place_of_estimateBits {m : Word} (h : BitsWithin estimateBits m) {i : Nat} (hi : i < 32) (hb : bitAt m i = true) :
    3 ≤ i ∧ i ≤ 5 ∨ i = 7 ∨ i = 22 := by
  by_contra hn
  rw [h.bit (by rw [bitAt_estimateBits i hi]; exact decide_eq_false hn)] at hb
  cases hb

theorem bitAt_of_estimateFree {f m g : Word} (h : SameOutside estimateFree (f ||| m) g) {i : Nat} (hi : i < 32)
    (h6 : i ≠ 6) (hr : i < 13 ∨ 20 ≤ i) : bitAt g i = (bitAt f i || bitAt m i) := by
  rw [← bitAt_or]
  refine sameOutside_iff.mp h i hi ?_
  rw [bitAt_estimateFree i hi]
  exact decide_eq_false (by omega)

section
variable {exc range f g : Word} (hw : BitsWithin estimateBits (exc ||| range)) (h : EstimateStatus exc range f g)
include hw h

/-- What the FPSCR is when the instruction has ended. -/
theorem EstimateStatus.ended : fpEndStatus f g &&& exc = exc ∧ (f &&& range) &&& ~~~(fpEndStatus f g) = 0 ∧
    bitAt (fpEndStatus f g) 0 = (bitAt f 0 || (fpEndStatus f g &&& ~~~f &&& fpExceptionBits != 0)) ∧
    FpscrSummaries (fpEndStatus f g) ∧ SameOutside (0xE207F000 ||| exc ||| range) f (fpEndStatus f g) := by
  obtain ⟨m, hm, hexc, hg⟩ := h
  have hset : ∀ i, i < 32 → bitAt (exc ||| range) i = true → bitAt (fpEndStatus f g) i = (bitAt f i || bitAt m i) :=
    fun i hi hb => by
      have hp := place_of_estimateBits hw hi hb
      rw [fpEndStatus_bit _ _ (by omega) hi, bitAt_of_estimateFree hg hi (by omega) (by omega)]
  refine ⟨eq_of_bitAt_eq fun i hi => ?_, eq_of_bitAt_eq fun i hi => ?_, fpEndStatus_fx_eq ?_, fpEndStatus_summaries _ _,
    sameOutside_iff.mpr fun i hi hb => ?_⟩
  · rw [bitAt_and]
    cases he : bitAt exc i
    · exact Bool.and_false _
    · have hmi : bitAt m i = true := by
        rw [← hexc, bitAt_and, Bool.and_eq_true] at he
        exact he.2
      rw [hset i hi (by rw [bitAt_or, he]; rfl), hmi, Bool.or_true]
      rfl
  · rw [bitAt_and, bitAt_and, bitAt_not _ hi, bitAt_zero]
    cases hr : bitAt range i
    · rw [Bool.and_false, Bool.false_and]
    · rw [hset i hi (by rw [bitAt_or, hr, Bool.or_true])]
      cases bitAt f i <;> simp
  · have h0 : bitAt (exc ||| range) 0 = false := hw.bit (by decide)
    rw [bitAt_of_estimateFree hg (by decide) (by decide) (by decide), hm.bit h0, Bool.or_false]
  · rw [BitVec.or_assoc, bitAt_or, Bool.or_eq_false_iff, bitAt_estimateMask i hi, decide_eq_false_iff_not] at hb
    rw [fpEndStatus_bit _ _ (by omega) hi, bitAt_of_estimateFree hg hi (by omega) (by omega), hm.bit hb.2, Bool.or_false]

end

/-! ## The cases of the contract -/

/-- The square root of `b` is invalid: a negative number or the negative infinity (R681). -/
def estimateNegative (rsqrt : Bool) (b : DWord) : Bool := rsqrt && fpSign b && !isNaN b && !isZero b

theorem and_isNegative (rsqrt : Bool) (b : DWord) : (rsqrt && isNegative b) = estimateNegative rsqrt b := by
  rw [isNegative, estimateNegative, Bool.and_assoc, Bool.and_assoc, Bool.and_assoc]

/-- The Invalid Operation bits of an estimate. -/
def estimateVx (rsqrt : Bool) (b : DWord) : Word := fpWhen (isSNaN b) fpVxsnan ||| fpWhen (estimateNegative rsqrt b) fpVxsqrt

/-- The exception bits that an estimate of `b` sets. -/
def estimateExceptions (rsqrt : Bool) (b : DWord) : Word := estimateVx rsqrt b ||| fpWhen (isZero b) fpZx

/-- The exception bits that it may set, where the reciprocal may leave the range. -/
def estimateRange (fmt : FpFormat) (rsqrt : Bool) (b : DWord) : Word :=
  if !rsqrt && isNumber b then fpWhen (recipHuge fmt b) fpOx ||| fpWhen (recipTiny fmt b) fpUx else 0

/-- An enabled exception keeps FRT and FPRF. -/
def estimateKept (rsqrt : Bool) (b : DWord) (f : Word) : Bool :=
  ((isSNaN b || estimateNegative rsqrt b) && bitAt f 24) || (isZero b && bitAt f 27)

/-- What an estimate of `b` delivers, `x` (R681). -/
structure EstimateValue (fmt : FpFormat) (rsqrt : Bool) (b x : DWord) : Prop where
  nan      : isNaN b = true → x = quiet b
  negative : estimateNegative rsqrt b = true → x = qnanGenerated
  infinity : isInf b = true → estimateNegative rsqrt b = false → x = fpZero (fpSign b)
  zero     : isZero b = true → x = fpInf (fpSign b)
  number   : isNumber b = true → estimateNegative rsqrt b = false → IsEstimate fmt rsqrt b x

/-- The FPSCR and FRT of an estimate of `b`. -/
structure Estimates (fmt : FpFormat) (rsqrt : Bool) (b : DWord) (f : Word) (r : Word × Option DWord) : Prop where
  status    : EstimateStatus (estimateExceptions rsqrt b) (estimateRange fmt rsqrt b) f r.1
  kept      : estimateKept rsqrt b f = true → r.2 = none ∧ fld r.1 15 5 = fld f 15 5
  delivered : estimateKept rsqrt b f = false → ∃ x, r.2 = some x ∧ fld r.1 15 5 = fpClass fmt x ∧
    EstimateValue fmt rsqrt b x

theorem estimateVx_within (rsqrt : Bool) (b : DWord) : BitsWithin estimateBits (estimateVx rsqrt b) :=
  BitsWithin.or (BitsWithin.when (by decide) _) (BitsWithin.when (by decide) _)

theorem estimateRange_within (fmt : FpFormat) (rsqrt : Bool) (b : DWord) :
    BitsWithin estimateBits (estimateRange fmt rsqrt b) := by
  unfold estimateRange
  split
  · exact BitsWithin.or (BitsWithin.when (by decide) _) (BitsWithin.when (by decide) _)
  · exact BitVec.zero_and

theorem estimate_within (fmt : FpFormat) (rsqrt : Bool) (b : DWord) :
    BitsWithin estimateBits (estimateExceptions rsqrt b ||| estimateRange fmt rsqrt b) :=
  ((estimateVx_within rsqrt b).or (BitsWithin.when (by decide) _)).or (estimateRange_within fmt rsqrt b)

theorem estimateVx_eq_zero {rsqrt : Bool} {b : DWord} (hs : isSNaN b = false) (hn : estimateNegative rsqrt b = false) :
    estimateVx rsqrt b = 0 := by
  rw [estimateVx, hs, hn]
  rfl

theorem estimateVx_ne_zero {rsqrt : Bool} {b : DWord} (h : (isSNaN b || estimateNegative rsqrt b) = true) :
    estimateVx rsqrt b ≠ 0 := by
  rw [estimateVx]
  revert h
  generalize isSNaN b = snan
  generalize estimateNegative rsqrt b = negative
  revert snan negative
  decide

/-! ## The outcome, case by case (49_optional.md R680, R681) -/

section
variable (fmt : FpFormat) {rsqrt : Bool} {b : DWord} (f : Word) (u v : DWord)

theorem estimateResult_eq : estimateResult fmt rsqrt b f u v =
    if estimateVx rsqrt b ≠ 0 then
      if fpVe f then (estimateStatus f u ||| estimateVx rsqrt b, none)
      else (setFprf (estimateStatus f u ||| estimateVx rsqrt b) 0b10001, some (nanResult [b]))
    else if isNaN b then (setFprf (estimateStatus f u) 0b10001, some b)
    else if isZero b then
      if fpZe f then (estimateStatus f u ||| fpZx, none)
      else (setFprf (estimateStatus f u ||| fpZx) (fpClass fmt (fpInf (fpSign b))), some (fpInf (fpSign b)))
    else if isInf b then (setFprf (estimateStatus f u) (fpClass fmt (fpZero (fpSign b))), some (fpZero (fpSign b)))
    else
      (setFprf (estimateStatus f u ||| (fpWhen (bitAt u 60 && !rsqrt && recipLarge fmt b) fpOx |||
        fpWhen (bitAt u 59 && !rsqrt && recipSmall fmt b) fpUx)) (fpClass fmt (estimate fmt rsqrt b v)),
        some (estimate fmt rsqrt b v)) := by
  have hvx : vxsnanOf [b] ||| fpWhen (rsqrt && isNegative b) fpVxsqrt = estimateVx rsqrt b := by
    rw [and_isNegative, estimateVx, vxsnanOf, List.any_cons, List.any_nil, Bool.or_false]
  unfold estimateResult
  rw [hvx]

variable {fmt f u} {m : Word}

/-- FPRF where XX, FR, FI and exception bits are written. -/
theorem fprf_estimateStatus (hm : BitsWithin estimateBits m) : fld (estimateStatus f u ||| m) 15 5 = fld f 15 5 := by
  refine fld_eq_of_bits (by decide) fun i h1 h2 => ?_
  have hmi : bitAt m i = false := hm.bit (by rw [bitAt_estimateBits i (by omega)]; exact decide_eq_false (by omega))
  rw [bitAt_or, hmi, Bool.or_false, estimateStatus, bitAt_setBitAt _ _ (by omega) (by decide), if_neg (by omega),
    bitAt_setFrFi _ _ _ (by omega), if_neg (by omega), if_neg (by omega)]

variable (hm : BitsWithin (estimateExceptions rsqrt b ||| estimateRange fmt rsqrt b) m)
  (he : BitsWithin m (estimateExceptions rsqrt b))
include hm he

/-- An outcome that delivers nothing. -/
theorem estimates_of_kept (hk : estimateKept rsqrt b f = true) :
    Estimates fmt rsqrt b f (estimateStatus f u ||| m, none) :=
  ⟨⟨m, hm, he, (sameOutside_estimateStatus_free f u).or m⟩,
    fun _ => ⟨rfl, fprf_estimateStatus (hm.mono (estimate_within fmt rsqrt b))⟩,
    fun h => absurd (hk.symm.trans h) (by decide)⟩

/-- An outcome that delivers `x`. -/
theorem estimates_of_value (hk : estimateKept rsqrt b f = false) {x : DWord} {c : BitVec 5} (hc : c = fpClass fmt x)
    (hx : EstimateValue fmt rsqrt b x) : Estimates fmt rsqrt b f (setFprf (estimateStatus f u ||| m) c, some x) :=
  ⟨⟨m, hm, he, ((sameOutside_estimateStatus_free f u).or m).trans ((sameOutside_setFprf _ c).mono (by decide))⟩,
    fun h => absurd (hk.symm.trans h) (by decide), fun _ => ⟨x, rfl, (fld_setFprf _ c).trans hc, hx⟩⟩

end

/-! ### Each class of operand -/

section
variable {fmt : FpFormat} {rsqrt : Bool} {b : DWord}

theorem estimateNegative_iff : estimateNegative rsqrt b = true ↔
    ((rsqrt = true ∧ fpSign b = true) ∧ isNaN b = false) ∧ isZero b = false := by
  simp only [estimateNegative, Bool.and_eq_true, Bool.not_eq_true']

theorem isZero_of_isNaN (h : isNaN b = true) : isZero b = false := by
  rw [← Bool.not_eq_true]
  intro hz
  rw [(finite_of_isZero hz).1] at h
  cases h

theorem estimateNegative_of_isNaN (h : isNaN b = true) : estimateNegative rsqrt b = false := by simp [estimateNegative, h]

theorem estimateNegative_of_isZero (h : isZero b = true) : estimateNegative rsqrt b = false := by simp [estimateNegative, h]

theorem estimateRange_of_not_number (h : isNumber b = false) : estimateRange fmt rsqrt b = 0 := by
  simp [estimateRange, h]

theorem EstimateValue.of_nan (h : isNaN b = true) : EstimateValue fmt rsqrt b (quiet b) := by
  have hinf : isInf b = false := by
    rw [← Bool.not_eq_true]
    exact fun hi => by simp [isNaN_of_isInf hi] at h
  have hneg : estimateNegative rsqrt b = false := estimateNegative_of_isNaN h
  exact ⟨fun _ => rfl, by simp [hneg], by simp [hinf], by simp [isZero_of_isNaN h], by simp [isNumber_iff, h]⟩

theorem EstimateValue.of_negative (h : estimateNegative rsqrt b = true) : EstimateValue fmt rsqrt b qnanGenerated := by
  obtain ⟨⟨-, hn⟩, hz⟩ := estimateNegative_iff.mp h
  exact ⟨by simp [hn], fun _ => rfl, by simp [h], by simp [hz], by simp [h]⟩

theorem EstimateValue.of_zero (h : isZero b = true) : EstimateValue fmt rsqrt b (fpInf (fpSign b)) := by
  obtain ⟨hn, hi⟩ := finite_of_isZero h
  exact ⟨by simp [hn], by simp [estimateNegative_of_isZero h], by simp [hi], fun _ => rfl, by simp [isNumber_iff, h]⟩

theorem EstimateValue.of_infinity (h : isInf b = true) (hneg : estimateNegative rsqrt b = false) :
    EstimateValue fmt rsqrt b (fpZero (fpSign b)) :=
  ⟨by simp [isNaN_of_isInf h], by simp [hneg], fun _ _ => rfl, by simp [isZero_of_isInf h], by simp [isNumber_iff, h]⟩

theorem EstimateValue.of_number (h : isNumber b = true) (hneg : estimateNegative rsqrt b = false) {x : DWord}
    (hx : IsEstimate fmt rsqrt b x) : EstimateValue fmt rsqrt b x := by
  obtain ⟨⟨hn, hi⟩, hz⟩ := (isNumber_iff b).mp h
  exact ⟨by simp [hn], by simp [hneg], by simp [hi], by simp [hz], fun _ _ => hx⟩

theorem quiet_eq_self (h : isNaN b = true) (hs : isSNaN b = false) : quiet b = b := by
  rw [isSNaN, h, Bool.true_and, Bool.not_eq_false'] at hs
  refine eq_of_bitAt_eq fun i hi => ?_
  have q : ∀ i, i < 64 → bitAt (0x0008000000000000 : DWord) i = decide (i = 12) := by decide
  rw [quiet, bitAt_or, q i hi]
  rcases eq_or_ne i 12 with rfl | h12
  · rw [hs]
    rfl
  · rw [decide_eq_false h12, Bool.or_false]

theorem fpClass_of_isNaN {x : DWord} (h : isNaN x = true) : 0b10001 = fpClass fmt x := by rw [fpClass, if_pos h]

variable {f : Word} {u v : DWord}

theorem or_zero_setFprf (g : Word) (c : BitVec 5) : setFprf g c = setFprf (g ||| 0) c := by
  rw [show g ||| 0 = g from BitVec.or_zero]

/-- An invalid estimate. -/
theorem estimates_of_invalid (h : (isSNaN b || estimateNegative rsqrt b) = true) :
    Estimates fmt rsqrt b f (estimateResult fmt rsqrt b f u v) := by
  have hz : isZero b = false := by
    rcases Bool.or_eq_true_iff.mp h with hs | hn
    · exact isZero_of_isNaN (isNaN_of_isSNaN hs)
    · exact (estimateNegative_iff.mp hn).2
  have hexc : estimateExceptions rsqrt b = estimateVx rsqrt b := by
    rw [estimateExceptions, hz]
    exact BitVec.or_zero
  have hkept : estimateKept rsqrt b f = bitAt f 24 := by
    rw [estimateKept, h, hz, Bool.true_and, Bool.false_and, Bool.or_false]
  have hm : BitsWithin (estimateExceptions rsqrt b ||| estimateRange fmt rsqrt b) (estimateVx rsqrt b) := by
    rw [hexc]
    exact eq_of_bitAt_eq fun i _ => by
      rw [bitAt_and, bitAt_or]
      exact inf_sup_self
  have he : BitsWithin (estimateVx rsqrt b) (estimateExceptions rsqrt b) := by
    rw [hexc]
    exact BitVec.and_self
  rw [estimateResult_eq, if_pos (estimateVx_ne_zero h)]
  split
  · rename_i hv
    exact estimates_of_kept hm he (hkept.trans hv)
  · rename_i hv
    have hk : estimateKept rsqrt b f = false := hkept.trans (Bool.eq_false_iff.mpr hv)
    rcases Bool.or_eq_true_iff.mp h with hs | hn
    · have hnan := isNaN_of_isSNaN hs
      have hx : nanResult [b] = quiet b := if_pos hnan
      rw [hx]
      exact estimates_of_value hm he hk (fpClass_of_isNaN (isNaN_quiet hnan)) (.of_nan hnan)
    · have hx : nanResult [b] = qnanGenerated := if_neg (by rw [(estimateNegative_iff.mp hn).1.2]; decide)
      rw [hx]
      exact estimates_of_value hm he hk (fpClass_of_isNaN (by decide)) (.of_negative hn)

section
variable (hs : isSNaN b = false) (hn : estimateNegative rsqrt b = false)
include hs hn

theorem estimateExceptions_of_valid : estimateExceptions rsqrt b = fpWhen (isZero b) fpZx := by
  rw [estimateExceptions, estimateVx_eq_zero hs hn]
  exact BitVec.zero_or

theorem estimateKept_of_valid : estimateKept rsqrt b f = (isZero b && bitAt f 27) := by
  rw [estimateKept, hs, hn, Bool.or_false, Bool.false_and, Bool.false_or]

/-- The estimate of a zero. -/
theorem estimates_of_zero (hz : isZero b = true) : Estimates fmt rsqrt b f (estimateResult fmt rsqrt b f u v) := by
  have hexc : estimateExceptions rsqrt b = fpZx := by
    rw [estimateExceptions_of_valid hs hn, hz]
    rfl
  have hrange : estimateRange fmt rsqrt b = 0 := estimateRange_of_not_number (by simp [isNumber, hz])
  have hm : BitsWithin (estimateExceptions rsqrt b ||| estimateRange fmt rsqrt b) fpZx := by
    rw [hexc, hrange]
    decide
  have he : BitsWithin fpZx (estimateExceptions rsqrt b) := by
    rw [hexc]
    decide
  have hkept : estimateKept rsqrt b f = bitAt f 27 := by rw [estimateKept_of_valid hs hn, hz, Bool.true_and]
  have hnan : ¬ isNaN b = true := by rw [(finite_of_isZero hz).1]; decide
  rw [estimateResult_eq, if_neg (not_not_intro (estimateVx_eq_zero hs hn)), if_neg hnan, if_pos hz]
  split
  · rename_i hv
    exact estimates_of_kept hm he (hkept.trans hv)
  · rename_i hv
    exact estimates_of_value hm he (hkept.trans (Bool.eq_false_iff.mpr hv)) rfl (.of_zero hz)

variable (hz : isZero b = false)
include hz

/-- An outcome that sets no exception bit but those of the range. -/
theorem estimates_of_valid {m : Word} (hm : BitsWithin (estimateRange fmt rsqrt b) m) {x : DWord} {c : BitVec 5}
    (hc : c = fpClass fmt x) (hx : EstimateValue fmt rsqrt b x) :
    Estimates fmt rsqrt b f (setFprf (estimateStatus f u ||| m) c, some x) := by
  have hexc : estimateExceptions rsqrt b = 0 := by
    rw [estimateExceptions_of_valid hs hn, hz]
    rfl
  refine estimates_of_value ?_ ?_ ?_ hc hx
  · rwa [hexc, show 0 ||| estimateRange fmt rsqrt b = estimateRange fmt rsqrt b from BitVec.zero_or]
  · rw [hexc]
    exact BitVec.zero_and
  · rw [estimateKept_of_valid hs hn, hz, Bool.false_and]

/-- The estimate of a nonzero number. -/
theorem estimates_of_number (hf : fmt.Standard) (ht : fmt.Takes b) (hnan : isNaN b = false) (hinf : isInf b = false) :
    Estimates fmt rsqrt b f (estimateResult fmt rsqrt b f u v) := by
  have hb : isNumber b = true := (isNumber_iff b).mpr ⟨⟨hnan, hinf⟩, hz⟩
  have hroot : rsqrt = true → fpSign b = false := fun hr => by
    rw [← Bool.not_eq_true]
    exact fun hsg => by simp [estimateNegative_iff.mpr ⟨⟨⟨hr, hsg⟩, hnan⟩, hz⟩] at hn
  rw [estimateResult_eq, if_neg (not_not_intro (estimateVx_eq_zero hs hn)), if_neg (by simp [hnan]), if_neg (by simp [hz]),
    if_neg (by simp [hinf])]
  refine estimates_of_valid hs hn hz ?_ rfl (.of_number hb hn (isEstimate_estimate hf hb ht hroot v))
  rw [recipLarge_eq hf hz, recipSmall_eq fmt hz, estimateRange, hb, Bool.and_true]
  generalize bitAt u 60 = u60
  generalize bitAt u 59 = u59
  generalize recipHuge fmt b = huge
  generalize recipTiny fmt b = tiny
  clear hroot hn
  revert rsqrt u60 u59 huge tiny
  decide

end

/-- An estimate keeps its contract, on every operand. -/
theorem estimateResult_estimates (hf : fmt.Standard) (ht : fmt.Takes b) :
    Estimates fmt rsqrt b f (estimateResult fmt rsqrt b f u v) := by
  cases hi : (isSNaN b || estimateNegative rsqrt b)
  case true => exact estimates_of_invalid hi
  obtain ⟨hs, hn⟩ := Bool.or_eq_false_iff.mp hi
  cases hz : isZero b
  case true => exact estimates_of_zero hs hn hz
  have hvx := not_not_intro (estimateVx_eq_zero hs hn)
  cases hnan : isNaN b
  case true =>
    rw [estimateResult_eq, if_neg hvx, if_pos hnan, or_zero_setFprf]
    refine estimates_of_valid hs hn hz BitVec.zero_and (fpClass_of_isNaN hnan) ?_
    have hv : EstimateValue fmt rsqrt b (quiet b) := .of_nan hnan
    rwa [quiet_eq_self hnan hs] at hv
  cases hinf : isInf b
  case true =>
    rw [estimateResult_eq, if_neg hvx, if_neg (by simp [hnan]), if_neg (by simp [hz]), if_pos hinf, or_zero_setFprf]
    exact estimates_of_valid hs hn hz BitVec.zero_and rfl (.of_infinity hinf hn)
  exact estimates_of_number hs hn hz hf ht hnan hinf

end

/-! ## The instructions (49_optional.md R682 to R685) -/

theorem fpEstimateRun_endsWith (fmt : FpFormat) (single rsqrt : Bool) (frt frb : RegNum) (rc : Bool) (s : State) :
    ∃ u v, EndsWith (fpEstimateRun fmt single rsqrt frt frb rc s) s frt single rc
      (fpEstimate fmt rsqrt (s.fprOf frb) s.fpscr u v) := by
  obtain ⟨t, ht, hvalue, hsingle, hfpscr, hframe⟩ := fpRun_endsWith frt single rc
    (fun f v => fpEstimate fmt rsqrt (s.fprOf frb) f (s.draw 64) v) s.drawn
  exact ⟨s.draw 64, s.drawn.draw 64, t, ht, hvalue, hsingle, hfpscr, hframe⟩

/-- The single-precision estimates, where single format represents the operand. -/
theorem fpSingleEstimate_endsWith (rsqrt : Bool) (frt frb : RegNum) (rc : Bool) {mask : Word} (s : State)
    (hr : repSingle (s.fprOf frb) = true) :
    ∃ u v, EndsWith
      (if repSingle (s.fprOf frb) then fpEstimateRun .sp true rsqrt frt frb rc s else fpUndefined frt rc mask s)
      s frt true rc
      (fpEstimate .sp rsqrt (s.fprOf frb) s.fpscr u v) := by
  rw [if_pos hr]
  exact fpEstimateRun_endsWith .sp true rsqrt frt frb rc s

section
variable {s t : State} {frt : RegNum} {single rc rsqrt : Bool} {fmt : FpFormat} {b u v : DWord}
  (h : s.Ends t frt single rc (fpEstimate fmt rsqrt b s.fpscr u v)) (hf : fmt.Standard) (ht : fmt.Takes b)
include h

/-- FEX = 1 afterwards counts as an exception caused (R680). -/
theorem State.Ends.estimate_frame : s.FloatingPoint t frt rc (s.enabledEvent (bitAt t.fpscr 1)) := by
  rw [h.fpscr, fpEndStatus_fex]
  exact h.frame

include hf ht

theorem State.Ends.estimate_kept (hk : estimateKept rsqrt b s.fpscr = true) :
    t.fprOf frt = s.fprOf frt ∧ t.singleOf frt = s.singleOf frt ∧ fld t.fpscr 15 5 = fld s.fpscr 15 5 := by
  have hvalue := h.value
  have hsingle := h.single
  obtain ⟨hnone, hclass⟩ := (estimateResult_estimates (f := s.fpscr) (u := u) (v := v) hf ht).kept hk
  simp only [fpEstimate, hnone] at hvalue hsingle
  exact ⟨hvalue, hsingle, h.status.2.2.trans hclass⟩

theorem State.Ends.estimate_delivered (hk : estimateKept rsqrt b s.fpscr = false) :
    t.singleOf frt = single ∧ fld t.fpscr 15 5 = fpClass fmt (t.fprOf frt) ∧
      EstimateValue fmt rsqrt b (t.fprOf frt) := by
  have hvalue := h.value
  have hsingle := h.single
  obtain ⟨x, hsome, hclass, hx⟩ := (estimateResult_estimates (f := s.fpscr) (u := u) (v := v) hf ht).delivered hk
  simp only [fpEstimate, hsome] at hvalue hsingle
  have hval : t.fprOf frt = x := hvalue
  rw [hval]
  exact ⟨hsingle, h.status.2.2.trans hclass, hx⟩

end

/-- Settles O59: each of the four instructions ends with the outcome of an estimate, and an estimate keeps its contract. -/
theorem estimateResults : Obligations.EstimateResults := by
  intro s frt frb rc hs hg b gives
  have of : ∀ {fmt res rsqrt}, fmt.Standard →
      (fmt.Takes b → ∃ u v, EndsWith res s frt (fmt.p == 24) rc (fpEstimate fmt rsqrt b s.fpscr u v)) →
      gives fmt res rsqrt := by
    intro fmt res rsqrt hf ends ht negative kept set exceptions outOfRange
    obtain ⟨u, v, t, hres, he⟩ := ends ht
    have hst := (estimateResult_estimates (rsqrt := rsqrt) (f := s.fpscr) (u := u) (v := v) hf ht).status.ended
      (estimate_within fmt rsqrt b)
    have hout : fpEndStatus s.fpscr (estimateResult fmt rsqrt b s.fpscr u v).1 = t.fpscr := he.fpscr.symm
    rw [hout] at hst
    obtain ⟨hexc, hrange, hfx, hsum, hsame⟩ := hst
    refine ⟨t, hres, hexc, hrange, hfx, hsum, hsame, he.estimate_kept hf ht, fun hk => ?_, he.estimate_frame⟩
    obtain ⟨hsingle, hclass, hnan, hneg, hinf, hzero, hnum⟩ := he.estimate_delivered hf ht hk
    refine ⟨hsingle, hclass, hnan, hneg, hinf, hzero, fun h1 h2 => ?_⟩
    obtain ⟨hsign, hnan', htakes, hrecip, hroot⟩ := hnum h1 h2
    exact ⟨hsign, hnan', htakes, hrecip, hroot⟩
  have double : ∀ rsqrt, gives .dp (fpEstimateRun .dp false rsqrt frt frb rc s) rsqrt := fun rsqrt =>
    of FpFormat.dp_standard fun _ => fpEstimateRun_endsWith .dp false rsqrt frt frb rc s
  have single : ∀ rsqrt mask, gives .sp (if repSingle b then fpEstimateRun .sp true rsqrt frt frb rc s
      else fpUndefined frt rc mask s) rsqrt := fun rsqrt mask =>
    of FpFormat.sp_standard fun ht => fpSingleEstimate_endsWith rsqrt frt frb rc s (ht rfl)
  have guarded : ∀ (a : Res) (k : Unit → Res), (if !s.env.hasFpGraphics then a else fpGuard s k) = k () := fun a k =>
    (ite_not_provided hg a _).trans (fpGuard_of_ieee k hs)
  refine ⟨?_, ?_, ?_, ?_⟩
  · rw [show exec (.fre frt frb rc) s = _ from guarded _ _]
    exact double false
  · rw [show exec (.fres frt frb rc) s = _ from guarded _ _]
    exact single false _
  · rw [show exec (.frsqrte frt frb rc) s = _ from guarded _ _]
    exact double true
  · rw [show exec (.frsqrtes frt frb rc) s = _ from guarded _ _]
    exact single true _

end Sys2Proof.Machine
end
